-- ==== Sys2Proof/Word.lean ====
section
/-! DEFINITION. The word types of CORE (10_state.md R10, R11; 20_memory.md R40). -/

namespace Sys2Proof

/-- R10: a 16-bit unsigned word, the value of registers, memory cells and the bus. -/
abbrev Word := BitVec 16

/-- R11, R40: a 12-bit word address, the width of AR and PC. -/
abbrev Addr := BitVec 12

/-- R11: the 8-bit value of the I/O byte registers OUTR and INPR. -/
abbrev Byte := BitVec 8

end Sys2Proof
end

