-- ==== Sys2Proof/Syntax.lean ====
section
/-! DEFINITION. The instructions of CORE: one constructor for each of the 25 rows of the opcode table
(30_encoding.md R60 to R66). -/

namespace Sys2Proof

/-- A decoded instruction. Format M (R61, R62) carries the indirect bit and the 12-bit address; format X has no fields. -/
inductive Instr where
  -- memory-reference, R64
  | and (ind : Bool) (addr : Addr)
  | add (ind : Bool) (addr : Addr)
  | lda (ind : Bool) (addr : Addr)
  | sta (ind : Bool) (addr : Addr)
  | bun (ind : Bool) (addr : Addr)
  | bsa (ind : Bool) (addr : Addr)
  | isz (ind : Bool) (addr : Addr)
  -- register-reference, R65
  | cla
  | cle
  | cma
  | cme
  | cir
  | cil
  | inc
  | spa
  | sna
  | sza
  | sze
  | hlt
  -- input/output-reference, R66
  | inp
  | out
  | ski
  | sko
  | ion
  | iof
  deriving DecidableEq, Repr

/-- Whether an instruction carries an address operand (R8, "Memory-reference instruction"). -/
def Instr.isMemRef : Instr → Bool
  | .and _ _ => true
  | .add _ _ => true
  | .lda _ _ => true
  | .sta _ _ => true
  | .bun _ _ => true
  | .bsa _ _ => true
  | .isz _ _ => true
  | .cla => false
  | .cle => false
  | .cma => false
  | .cme => false
  | .cir => false
  | .cil => false
  | .inc => false
  | .spa => false
  | .sna => false
  | .sza => false
  | .sze => false
  | .hlt => false
  | .inp => false
  | .out => false
  | .ski => false
  | .sko => false
  | .ion => false
  | .iof => false

end Sys2Proof
end

