-- ==== Sys2Proof/Config.lean ====
section
/-! DEFINITION. What is fixed for one machine: the sequence counter's range (00_scope.md R4) and the six named parameters of
00_scope.md R5, each a field of Config, with the types that two of them, OPC and RESET, are made of. The defaults are in
Machine/Defaults.lean (assumption log 6). -/

namespace Sys2Proof

/-- R29: the values of the sequence counter SC, an integer 0 to 6; `tn` is SC = n. -/
inductive SC where
  | t0 | t1 | t2 | t3 | t4 | t5 | t6
  deriving DecidableEq, Repr

/-- The integer that an SC value stands for (R29). -/
def SC.toNat : SC → Nat
  | .t0 => 0
  | .t1 => 1
  | .t2 => 2
  | .t3 => 3
  | .t4 => 4
  | .t5 => 5
  | .t6 => 6

/-- 30_encoding.md R64 to R66: the opcode assignment, a table of 25 bit patterns. A memory-reference entry is the value of
the op field (R61), a format-X entry the whole word. -/
structure OpcodeTable where
  and : BitVec 3
  add : BitVec 3
  lda : BitVec 3
  sta : BitVec 3
  bun : BitVec 3
  bsa : BitVec 3
  isz : BitVec 3
  cla : Word
  cle : Word
  cma : Word
  cme : Word
  cir : Word
  cil : Word
  inc : Word
  spa : Word
  sna : Word
  sza : Word
  sze : Word
  hlt : Word
  inp : Word
  out : Word
  ski : Word
  sko : Word
  ion : Word
  iof : Word
  deriving DecidableEq, Repr

namespace Machine

/-! ## The values that the registers, flags and records of 10_state.md hold -/

/-- R11: the eight named registers. -/
inductive Reg where
  | AR | PC | DR | AC | IR | TR | OUTR | INPR
  deriving DecidableEq, Repr

/-- R30, R64 to R66: the 25 mnemonics, the values of CUR beside NONE. -/
inductive Mnemonic where
  | AND | ADD | LDA | STA | BUN | BSA | ISZ
  | CLA | CLE | CMA | CME | CIR | CIL | INC | SPA | SNA | SZA | SZE | HLT
  | INP | OUT | SKI | SKO | ION | IOF
  deriving DecidableEq, Repr

/-- 40_datapath.md R104: the endpoints of the Bus; `MEM` is the memory I/O latch. INPR is not one. -/
inductive Endpoint where
  | AR | PC | DR | AC | IR | TR | MEM | OUTR
  deriving DecidableEq, Repr

/-- R34, 40_datapath.md R107: a transfer the Bus has made. -/
structure BusTransfer where
  source : Endpoint
  destination : Endpoint
  value : Word
  deriving DecidableEq, Repr

/-- 40_datapath.md R93: the seven operations of the ALU. -/
inductive AluOp where
  | AND | ADD | LDA | CMA | CME | CIR | CIL
  deriving DecidableEq, Repr

/-- R35: which registers supplied the ALU's operands, and the operation's name. -/
structure AluRecord where
  op : AluOp
  a : Option Reg
  b : Option Reg
  deriving DecidableEq, Repr

end Machine

open Machine

/-- R5 `RESET`: the state after construction, every field of 10_state.md R37 but memory, which is the image. -/
structure ResetValues where
  AR : Addr
  PC : Addr
  DR : Word
  AC : Word
  IR : Word
  TR : Word
  OUTR : Byte
  INPR : Byte
  E : Bool
  I : Bool
  S : Bool
  R : Bool
  IEN : Bool
  FGI : Bool
  FGO : Bool
  SC : SC
  CUR : Option Mnemonic
  MLATCH : Word
  BUSREC : Option BusTransfer
  ALUREC : Option AluRecord
  deriving DecidableEq, Repr

/-- R5: the parameters that the spec offers for points its source leaves open. No step changes them. -/
structure Config where
  /-- `OPC` (decision D1; assumption log 7): the opcode assignment. -/
  opc : OpcodeTable
  /-- `ADD_CARRY_TO_E` (decision D2): ADD writes its carry out of bit 15 into E. -/
  addCarryToE : Bool
  /-- `UNDEF_LAST_T` (decision D4): the last idle T-state of an undecodable word, T3 to T6. -/
  undefLastT : SC
  /-- `INT_CLEARS_AC` (decision D6): interrupt state RT0 also clears AC. -/
  intClearsAC : Bool
  /-- `INP_KEEPS_AC_HIGH` (decision D10): INP leaves AC[15:8] unchanged. -/
  inpKeepsACHigh : Bool
  /-- `RESET` (decision D8; assumption log 3): the state after construction. Only `construct` reads it. -/
  reset : ResetValues
  deriving DecidableEq, Repr

end Sys2Proof
end

