-- ==== Sys2Proof/WellFormed.lean ====
section
/-! DEFINITION. What the types do not already guarantee. An instruction term needs no check: its two operand fields have
exactly the widths of format M (30_encoding.md R61: one bit and twelve bits, every value legal, R68), so every term of
Instr is an instruction of the machine. The parameters UNDEF_LAST_T and OPC have ranges of their own. -/

namespace Sys2Proof

/-- R5: `UNDEF_LAST_T` is one of 3 to 6, since T0 to T2 are the fetch and the decode of every word. -/
def Config.wf (c : Config) : Bool :=
  decide (3 ≤ c.undefLastT.toNat)

/-- The seven op values of a table (30_encoding.md R64). -/
def OpcodeTable.ops (t : OpcodeTable) : List (BitVec 3) :=
  [t.and, t.add, t.lda, t.sta, t.bun, t.bsa, t.isz]

/-- The 18 format-X patterns of a table (30_encoding.md R65, R66). -/
def OpcodeTable.patterns (t : OpcodeTable) : List Word :=
  [t.cla, t.cle, t.cma, t.cme, t.cir, t.cil, t.inc, t.spa, t.sna, t.sza, t.sze, t.hlt,
   t.inp, t.out, t.ski, t.sko, t.ion, t.iof]

/-- 30_encoding.md R61, for `OPC`: the seven op values are different and none is 7; the 18 patterns are different and each
has 7 in bits 14:12. Only what is said of encodings needs it: decoding is total with any table. -/
def OpcodeTable.wf (t : OpcodeTable) : Bool :=
  decide t.ops.Nodup && decide (7 ∉ t.ops) && decide t.patterns.Nodup &&
    t.patterns.all (fun p => p.extractLsb' 12 3 == 7)

end Sys2Proof
end

