-- ==== Sys2Proof/Machine/Defaults.lean ====
section
/-! DEFINITION. The defaults of the parameters of 00_scope.md R5, each a decision of the spec (92_eei_decisions.md D1, D2, D4,
D6, D8, D10; assumption log 3, 6, 7). -/

namespace Sys2Proof.Machine

/-- 30_encoding.md R64, R65, R66: the default of `OPC`. Only LDA's and HLT's entries are in the source (decision D1;
assumption log 7). -/
def defaultOpc : OpcodeTable where
  and := 0
  add := 1
  lda := 2
  sta := 3
  bun := 4
  bsa := 5
  isz := 6
  cla := 0x7800
  cle := 0x7400
  cma := 0x7200
  cme := 0x7100
  cir := 0x7080
  cil := 0x7040
  inc := 0x7020
  spa := 0x7010
  sna := 0x7008
  sza := 0x7004
  sze := 0x7002
  hlt := 0x7001
  inp := 0xF800
  out := 0xF400
  ski := 0xF200
  sko := 0xF100
  ion := 0xF080
  iof := 0xF040

/-- 10_state.md R37: the default of `RESET` (decision D8; assumption log 3; MLATCH: assumption log 4). -/
def defaultReset : ResetValues where
  AR := 0
  PC := 0
  DR := 0
  AC := 0
  IR := 0
  TR := 0
  OUTR := 0
  INPR := 0
  E := false
  I := false
  S := true
  R := false
  IEN := false
  FGI := false
  FGO := false
  SC := .t0
  CUR := none
  MLATCH := 0
  BUSREC := none
  ALUREC := none

/-- R5: the default of every parameter. -/
def defaultConfig : Config where
  opc := defaultOpc
  addCarryToE := true
  undefLastT := .t6
  intClearsAC := false
  inpKeepsACHigh := false
  reset := defaultReset

end Sys2Proof.Machine
end

