-- ==== Sys2Proof/Decode.lean ====
section
/-! DEFINITION. The decoder (30_encoding.md R62, R63), total on every word, and the encoder, both read from the opcode table
of the parameter OPC, whose default is that of R64 to R66 (Machine/Defaults.lean). 23 of its 25 entries are PRESUMED by the
spec, from general knowledge (decision D1; assumption log 7). -/

namespace Sys2Proof

/-! ## Fields of a word -/

/-- R61: the opcode field, bits 14:12. -/
def opField (w : Word) : BitVec 3 := w.extractLsb' 12 3

/-- R62: the address field, bits 11:0. -/
def addrField (w : Word) : Addr := w.extractLsb' 0 12

/-- R61: bit 15. -/
def indirectField (w : Word) : Bool := w.getLsbD 15

/-! ## The tables -/

/-- R64: the memory-reference instructions by their op values, with the operand fields of a word. -/
def memRefOps (t : OpcodeTable) (ind : Bool) (addr : Addr) : List (BitVec 3 × Instr) :=
  [(t.and, .and ind addr), (t.add, .add ind addr), (t.lda, .lda ind addr), (t.sta, .sta ind addr),
   (t.bun, .bun ind addr), (t.bsa, .bsa ind addr), (t.isz, .isz ind addr)]

/-- R65: the twelve register-reference patterns. -/
def regRefPatterns (t : OpcodeTable) : List (Word × Instr) :=
  [(t.cla, .cla), (t.cle, .cle), (t.cma, .cma), (t.cme, .cme), (t.cir, .cir), (t.cil, .cil),
   (t.inc, .inc), (t.spa, .spa), (t.sna, .sna), (t.sza, .sza), (t.sze, .sze), (t.hlt, .hlt)]

/-- R66: the six IO-reference patterns. -/
def ioRefPatterns (t : OpcodeTable) : List (Word × Instr) :=
  [(t.inp, .inp), (t.out, .out), (t.ski, .ski), (t.sko, .sko), (t.ion, .ion), (t.iof, .iof)]

/-- R63: the 18 format-X patterns. -/
def formatXPatterns (t : OpcodeTable) : List (Word × Instr) := regRefPatterns t ++ ioRefPatterns t

/-- The instruction whose key is exactly `w` (R61: "by exact 16-bit pattern match"; R63: "whose op equals w[14:12]"). -/
def findPattern {n : Nat} (w : BitVec n) : List (BitVec n × Instr) → Option Instr
  | [] => none
  | (p, i) :: rest => if w = p then some i else findPattern w rest

/-- R64: the memory-reference instruction of an op field, if the table gives the value to one. -/
def memRefOf (t : OpcodeTable) (op : BitVec 3) (ind : Bool) (addr : Addr) : Option Instr :=
  findPattern op (memRefOps t ind addr)

/-! ## The decoder -/

/-- Why the decoder gives no instruction. -/
inductive Reject where
  /-- R63, R67: the spec's NONE, "not found". The word is undecodable and idles (41_sequencer.md R118). Safe: the spec's own. -/
  | notFound
  /-- More than the 16 bits of an instruction were given to `decodeTableWord` (R60). Safe: no word of memory is like this. -/
  | tooLong
  deriving DecidableEq, Repr

/-- R63: `Decode(w)`; first the 18 patterns, then the op field. -/
def decode (t : OpcodeTable) (w : Word) : Except Reject Instr :=
  match findPattern w (formatXPatterns t) with
  | some i => .ok i
  | none =>
    match memRefOf t (opField w) (indirectField w) (addrField w) with
    | some i => .ok i
    | none => .error .notFound

/-- R62: `get_address()`, the low 12 bits of the word. -/
def getAddress (w : Word) : Addr := addrField w

/-- R62: `is_indirect()`, bit 15 set and the word a memory-reference instruction. -/
def isIndirect (t : OpcodeTable) (w : Word) : Bool :=
  match decode t w with
  | .ok i => indirectField w && i.isMemRef
  | .error _ => false

/-- The instruction read from a word of `nbits` bits whose bits are `w`; the bits above `nbits` are 0, and an instruction
is one word of 16 bits (R60), read by the default table (assumption log 27). -/
def decodeBits (nbits w : Nat) : Except Reject Instr :=
  if nbits ≤ 16 then decode Machine.defaultOpc (BitVec.ofNat 16 (w % 2 ^ nbits)) else .error .tooLong

/-- The decoder's answer on an opcode-table word, as the host asks for it. -/
def decodeTableWord (nbits w : Nat) : Option Instr :=
  match decodeBits nbits w with
  | .ok i => some i
  | .error _ => none

/-! ## The encoder -/

/-- R61, R75: `(indirect << 15) | (opcode << 12) | address`. -/
def formatM (ind : Bool) (op : BitVec 3) (addr : Addr) : Word :=
  (BitVec.ofBool ind).setWidth 16 <<< 15 ||| op.setWidth 16 <<< 12 ||| addr.setWidth 16

/-- The word of an instruction: R64 for format M, R65 and R66 (R76) for format X. -/
def encode (t : OpcodeTable) : Instr → Word
  | .and ind addr => formatM ind t.and addr
  | .add ind addr => formatM ind t.add addr
  | .lda ind addr => formatM ind t.lda addr
  | .sta ind addr => formatM ind t.sta addr
  | .bun ind addr => formatM ind t.bun addr
  | .bsa ind addr => formatM ind t.bsa addr
  | .isz ind addr => formatM ind t.isz addr
  | .cla => t.cla
  | .cle => t.cle
  | .cma => t.cma
  | .cme => t.cme
  | .cir => t.cir
  | .cil => t.cil
  | .inc => t.inc
  | .spa => t.spa
  | .sna => t.sna
  | .sza => t.sza
  | .sze => t.sze
  | .hlt => t.hlt
  | .inp => t.inp
  | .out => t.out
  | .ski => t.ski
  | .sko => t.sko
  | .ion => t.ion
  | .iof => t.iof

end Sys2Proof
end

