-- ==== Sys2Proof/Machine/State.lean ====
section
/-! DEFINITION. The state of CORE (10_state.md R10 to R38), the outcomes of a step, and the state after reset (R37). -/

namespace Sys2Proof.Machine

/-! ## The types of the fields -/

/-- 60_exceptions.md R196, R197: what the host may do between two cycles. -/
inductive HostEvent where
  /-- R196 `HostInput(b)`, `b` any integer. -/
  | input (b : Int)
  /-- R196 `HostOutputDrain`. -/
  | outputDrain
  /-- R197 `HostSetReg(X, v)`. -/
  | setReg (X : Reg) (v : Nat)
  /-- R197 `HostSetMem(a, v)`, `a` in 0..4095. -/
  | setMem (a : Addr) (v : Nat)
  /-- R197 `HostSnapshot`, which changes nothing. -/
  | snapshot
  deriving DecidableEq, Repr

/-- R31, 20_memory.md R40: memory as the words of the cells that do not hold the unprogrammed value 0xFFFF (20_memory.md
R47), addresses strictly rising (Ops.lean: Memory.wf). Word cells and not byte cells: 20_memory.md R42 (assumption log 2). -/
abbrev Memory := List (Nat × Word)

/-! ## The state -/

/-- R10 to R35, under the names of the spec. -/
@[ext]
structure State where
  /-- R13: memory address register. -/
  AR : Addr
  /-- R14: program counter. -/
  PC : Addr
  /-- R15: data register. -/
  DR : Word
  /-- R16: accumulator. -/
  AC : Word
  /-- R17: instruction register. -/
  IR : Word
  /-- R18: temporary register, where an interrupt saves PC. -/
  TR : Word
  /-- R19: output byte. -/
  OUTR : Byte
  /-- R20: input byte. -/
  INPR : Byte
  /-- R22: carry/extend. -/
  E : Bool
  /-- R23: indirect latch. -/
  I : Bool
  /-- R24: run (true) or halt (false). -/
  S : Bool
  /-- R25: interrupt-cycle-pending latch. -/
  R : Bool
  /-- R26: interrupt enable. -/
  IEN : Bool
  /-- R27: input ready. -/
  FGI : Bool
  /-- R28: output ready. -/
  FGO : Bool
  /-- R29: sequence counter. -/
  SC : SC
  /-- R30: current instruction; `none` is NONE. -/
  CUR : Option Mnemonic
  /-- R31: memory. -/
  M : Memory
  /-- R33: the Bus's memory I/O latch. -/
  MLATCH : Word
  /-- R34: the Bus's record of the T-state just performed. -/
  BUSREC : Option BusTransfer
  /-- R35: the ALU's record of its last operation. -/
  ALUREC : Option AluRecord
  /-- The parameters of 00_scope.md R5; nothing writes them (assumption log 6). -/
  cfg : Config
  /-- The model's own: what the host does just before each coming cycle, the next cycle's events first (assumption log 19). -/
  hostEvents : List (List HostEvent)
  /-- The model's own: the bytes that output drains have returned, oldest first (60_exceptions.md R196; assumption log 19). -/
  hostTook : List Byte
  deriving DecidableEq, Repr

/-! ## The outcomes that are no next state -/

/-- The hardware has no fault: "The sequencer never fails at run time" (41_sequencer.md R122, 60_exceptions.md R180;
assumption log 30). So no constructor. -/
inductive Fault where
  deriving DecidableEq, Repr

/-- Why the model gives no successor. -/
inductive Refusal where
  /-- Raised by exec's arm of an instruction that has no meaning yet. Safe: the run stops. No arm raises it. -/
  | notModelled (mnemonic : String)
  /-- Raised by the T-state functions in a control state that no cycle and no host event produces (10_state.md R36;
  93_implementation_defined.md U3: `refuse`; decision D13; assumption log 18). Safe: "No rule gives such a state a successor". -/
  | outsideInvariants
  deriving DecidableEq, Repr

/-- What one cycle, one instruction or one step answers. -/
abbrev Result := Host.Outcome State Fault Refusal

/-! ## Reset -/

/-- R37, 70_reset_and_hazards.md R210, R211: the machine constructed from a configuration, whose parameter RESET gives every
field but memory, and a memory image; a new program replaces the machine by a new construction (60_exceptions.md R199). -/
def construct (c : Config) (image : Memory) : State where
  AR := c.reset.AR
  PC := c.reset.PC
  DR := c.reset.DR
  AC := c.reset.AC
  IR := c.reset.IR
  TR := c.reset.TR
  OUTR := c.reset.OUTR
  INPR := c.reset.INPR
  E := c.reset.E
  I := c.reset.I
  S := c.reset.S
  R := c.reset.R
  IEN := c.reset.IEN
  FGI := c.reset.FGI
  FGO := c.reset.FGO
  SC := c.reset.SC
  CUR := c.reset.CUR
  M := image
  MLATCH := c.reset.MLATCH
  BUSREC := c.reset.BUSREC
  ALUREC := c.reset.ALUREC
  cfg := c
  hostEvents := []
  hostTook := []

/-- R37, R211: the machine constructed with every parameter at its default from an image that programs no cell (decision D8;
assumption log 3, 4, 5). -/
def State.reset : State := construct defaultConfig []

end Sys2Proof.Machine
end

