-- ==== Sys2Proof/Machine/Flags.lean ====
section
/-! DEFINITION. Every flag computation: the ALU (40_datapath.md R93 to R100), the interrupt request (41_sequencer.md R116)
and the conditions of the skips (43_register_reference.md R158 to R161, 44_io_reference.md R173, R174). -/

namespace Sys2Proof.Machine

/-! ## The ALU -/

/-- R95: the result of ADD, wrapped to 16 bits. -/
def addResult (A B : Word) : Word := A + B

/-- R95: `(A + B)[16]`, the carry out of bit 15 of the 17-bit sum. -/
def addCarry (A B : Word) : Bool := decide (65536 ≤ A.toNat + B.toNat)

/-- R99: `(E << 15) | (A >> 1)`. -/
def cirResult (A : Word) (E : Bool) : Word := (BitVec.ofBool E).setWidth 16 <<< 15 ||| A >>> 1

/-- R100: `trunc_16(A << 1) | E`. -/
def cilResult (A : Word) (E : Bool) : Word := A <<< 1 ||| (BitVec.ofBool E).setWidth 16

/-- R93: `ALU(op, A, B, E) -> (result, E')`; the result is absent for CME (R98). `carryToE` is the parameter
`ADD_CARRY_TO_E` (R95, decision D2; assumption log 8). -/
def alu (carryToE : Bool) (op : AluOp) (A B : Word) (E : Bool) : Option Word × Bool :=
  match op with
  | .AND => (some (A &&& B), E)
  | .ADD => (some (addResult A B), if carryToE then addCarry A B else E)
  | .LDA => (some A, E)
  | .CMA => (some (~~~A), E)
  | .CME => (none, !E)
  | .CIR => (some (cirResult A E), A.getLsbD 0)
  | .CIL => (some (cilResult A E), A.getLsbD 15)

/-! ## The interrupt request -/

/-- R116, R181, R182: `IEN & (FGI | FGO)`. -/
def interruptRequest (s : State) : Bool := s.IEN && (s.FGI || s.FGO)

/-! ## Skip conditions -/

/-- R158: `AC[15] = 0` (polarity: decision D9; assumption log 15). -/
def spaSkips (s : State) : Bool := !s.AC.getLsbD 15

/-- R159: `AC[15] = 1` (polarity: decision D9; assumption log 15). -/
def snaSkips (s : State) : Bool := s.AC.getLsbD 15

/-- R160: `AC = 0` (polarity: decision D9; assumption log 15). -/
def szaSkips (s : State) : Bool := decide (s.AC = 0)

/-- R161: `E = 0` (polarity: decision D9; assumption log 15). -/
def szeSkips (s : State) : Bool := !s.E

/-- R173: `FGI = 1` (polarity: decision D9; assumption log 15). -/
def skiSkips (s : State) : Bool := s.FGI

/-- R174: `FGO = 1` (polarity: decision D9; assumption log 15). -/
def skoSkips (s : State) : Bool := s.FGO

/-- R137: ISZ skips when the incremented value is zero (90_conflicts.md C1). -/
def iszSkips (s : State) : Bool := decide (s.DR = 0)

end Sys2Proof.Machine
end

