-- ==== Sys2Proof/Machine/Ops.lean ====
section
/-! DEFINITION. The named operations over memory, registers and the Bus (20_memory.md, 40_datapath.md), the parts of a
T-state that instructions share (41_sequencer.md R112 to R116), taking an interrupt (60_exceptions.md R184 to R188) and the
host's events (R196, R197). -/

namespace Sys2Proof.Machine

/-! ## Memory -/

/-- 20_memory.md R47: what a cell that nothing has programmed holds (93_implementation_defined.md U5; assumption log 2). -/
def blankWord : Word := 0xFFFF

/-- The canonical form from address `lo` on: addresses rise and lie in 0..4095, no entry holds the blank word. -/
def wfFrom : Nat → Memory → Bool
  | _, [] => true
  | lo, (a, v) :: m => decide (lo ≤ a) && decide (a < 4096) && decide (v ≠ blankWord) && wfFrom (a + 1) m

/-- The canonical form of memory: equal memories are equal lists. -/
def Memory.wf (m : Memory) : Bool := wfFrom 0 m

/-- The word of cell `a`; a cell that is not listed reads as the blank word. -/
def lookup : Memory → Nat → Word
  | [], _ => blankWord
  | (k, v) :: m, a => if k = a then v else lookup m a

/-- Cell `a` set to `v`, keeping the canonical form: storing the blank word removes the entry. -/
def store : Memory → Nat → Word → Memory
  | [], a, v => if v = blankWord then [] else [(a, v)]
  | (k, w) :: m, a, v =>
    if a < k then (if v = blankWord then (k, w) :: m else (a, v) :: (k, w) :: m)
    else if a = k then (if v = blankWord then m else (a, v) :: m)
    else (k, w) :: store m a v

/-- R43: `MemRead(a, 1) = M[a]`. -/
def memRead (m : Memory) (a : Addr) : Word := lookup m a.toNat

/-- R43: `MemWrite(a, 1, v)`. -/
def memWrite (m : Memory) (a : Addr) (v : Word) : Memory := store m a.toNat v

/-! ## The register file -/

/-- 40_datapath.md R91: a register's value, zero-extended to a word (decision D22; assumption log 31). -/
def regRead (X : Reg) (s : State) : Word :=
  match X with
  | .AR => s.AR.setWidth 16
  | .PC => s.PC.setWidth 16
  | .DR => s.DR
  | .AC => s.AC
  | .IR => s.IR
  | .TR => s.TR
  | .OUTR => s.OUTR.setWidth 16
  | .INPR => s.INPR.setWidth 16

/-- 40_datapath.md R90: `X <- v`, the low bits of `v` at X's width. -/
def regWrite (X : Reg) (v : Nat) (s : State) : State :=
  match X with
  | .AR => { s with AR := BitVec.ofNat 12 v }
  | .PC => { s with PC := BitVec.ofNat 12 v }
  | .DR => { s with DR := BitVec.ofNat 16 v }
  | .AC => { s with AC := BitVec.ofNat 16 v }
  | .IR => { s with IR := BitVec.ofNat 16 v }
  | .TR => { s with TR := BitVec.ofNat 16 v }
  | .OUTR => { s with OUTR := BitVec.ofNat 8 v }
  | .INPR => { s with INPR := BitVec.ofNat 8 v }

/-- 40_datapath.md R101: `PC <- PC + 1` at 12 bits. -/
def incrementPC (s : State) : State := { s with PC := s.PC + 1 }

/-- A skip (43_register_reference.md R150): one more increment of PC if the condition holds. -/
def skipIf (c : Bool) (s : State) : State := if c then incrementPC s else s

/-! ## The Bus -/

/-- 40_datapath.md R105: what an endpoint drives on the bus, zero-extended to 16 bits. -/
def busSource (src : Endpoint) (s : State) : Word :=
  match src with
  | .AR => regRead .AR s
  | .PC => regRead .PC s
  | .DR => regRead .DR s
  | .AC => regRead .AC s
  | .IR => regRead .IR s
  | .TR => regRead .TR s
  | .MEM => s.MLATCH
  | .OUTR => regRead .OUTR s

/-- 40_datapath.md R105: what an endpoint keeps of the word on the bus, its low bits. -/
def busDestination (dst : Endpoint) (v : Word) (s : State) : State :=
  match dst with
  | .AR => regWrite .AR v.toNat s
  | .PC => regWrite .PC v.toNat s
  | .DR => regWrite .DR v.toNat s
  | .AC => regWrite .AC v.toNat s
  | .IR => regWrite .IR v.toNat s
  | .TR => regWrite .TR v.toNat s
  | .MEM => { s with MLATCH := v }
  | .OUTR => regWrite .OUTR v.toNat s

/-- 40_datapath.md R103, R107: `load(dest, source)`, recorded in BUSREC. -/
def load (dst src : Endpoint) (s : State) : State :=
  busDestination dst (busSource src s) { s with BUSREC := some ⟨src, dst, busSource src s⟩ }

/-- 40_datapath.md R102: `read_memory()`, the I/O latch takes M[AR]. -/
def readMemory (s : State) : State := { s with MLATCH := memRead s.M s.AR }

/-- 40_datapath.md R102: `write_memory()`, the I/O latch goes to M[AR]. -/
def writeMemory (s : State) : State := { s with M := memWrite s.M s.AR s.MLATCH }

/-- R102: `X <- M[AR]`. -/
def loadFromMemory (dst : Endpoint) (s : State) : State := load dst .MEM (readMemory s)

/-- R102: `M[AR] <- X`. -/
def storeToMemory (src : Endpoint) (s : State) : State := writeMemory (load .MEM src s)

/-! ## The ALU in a T-state -/

/-- An ALU operand: a register's value, or nothing (0, which no operation without that operand reads). -/
def aluOperand (X : Option Reg) (s : State) : Word :=
  match X with
  | some r => regRead r s
  | none => 0

/-- 40_datapath.md R93: the ALU's result goes to AC and its flag to E in the same T-state; R35: ALUREC. -/
def aluToAC (op : AluOp) (a b : Option Reg) (s : State) : State :=
  let r := alu s.cfg.addCarryToE op (aluOperand a s) (aluOperand b s) s.E
  { s with AC := r.1.getD s.AC, E := r.2, ALUREC := some ⟨op, a, b⟩ }

/-! ## The parts of a T-state -/

/-- R34, 40_datapath.md R107: BUSREC says only what the T-state about to run transfers (decision D16; assumption log 20). -/
def beginCycle (s : State) : State := { s with BUSREC := none }

/-- R29: a counter value's successor; SC = 6 is always a completion's last value. -/
def nextSC : SC → SC
  | .t0 => .t1
  | .t1 => .t2
  | .t2 => .t3
  | .t3 => .t4
  | .t4 => .t5
  | .t5 => .t6
  | .t6 => .t0

/-- R29: a T-state that does not complete does `SC <- SC + 1`. -/
def advance (s : State) : State := { s with SC := nextSC s.SC }

/-- 41_sequencer.md R116: `Complete`, on the flags as the T-state's other writes left them. -/
def complete (s : State) : State := { s with SC := .t0, R := interruptRequest s }

/-- 41_sequencer.md R112: T0, `AR <- PC`. -/
def fetchT0 (s : State) : State := { load .AR .PC s with SC := .t1 }

/-- 41_sequencer.md R113: T1, `IR <- M[AR]`, `PC <- PC + 1`. -/
def fetchT1 (s : State) : State := { incrementPC (loadFromMemory .IR s) with SC := .t2 }

/-- 41_sequencer.md R114: T2's latches of a word `w` and its decoding; `IR` drives the bus. -/
def latchWord (w : Word) (cur : Option Mnemonic) (s : State) : State :=
  { s with CUR := cur, AR := addrField w, I := indirectField w, SC := .t3, BUSREC := some ⟨.IR, .AR, w⟩ }

/-- R30: the mnemonic of an instruction. -/
def mnemonicOf : Instr → Mnemonic
  | .and _ _ => .AND
  | .add _ _ => .ADD
  | .lda _ _ => .LDA
  | .sta _ _ => .STA
  | .bun _ _ => .BUN
  | .bsa _ _ => .BSA
  | .isz _ _ => .ISZ
  | .cla => .CLA
  | .cle => .CLE
  | .cma => .CMA
  | .cme => .CME
  | .cir => .CIR
  | .cil => .CIL
  | .inc => .INC
  | .spa => .SPA
  | .sna => .SNA
  | .sza => .SZA
  | .sze => .SZE
  | .hlt => .HLT
  | .inp => .INP
  | .out => .OUT
  | .ski => .SKI
  | .sko => .SKO
  | .ion => .ION
  | .iof => .IOF

/-- R30, R114: `Decode(w)` as a value of CUR; NONE for an undecodable word. -/
def currentOf (t : OpcodeTable) (w : Word) : Option Mnemonic :=
  match decode t w with
  | .ok i => some (mnemonicOf i)
  | .error _ => none

/-- 41_sequencer.md R114: T2. -/
def decodeT2 (s : State) : State := latchWord s.IR (currentOf s.cfg.opc s.IR) s

/-- R114: T2 of an instruction `i`, whose word is in IR (assumption log 22). -/
def latchInstr (i : Instr) (s : State) : State := latchWord (encode s.cfg.opc i) (some (mnemonicOf i)) s

/-! ## The host's events (60_exceptions.md R196, R197) -/

/-- R196 `HostInput(b)`: INPR keeps `b[7:0]`, FGI is set; no precondition. -/
def hostInput (b : Int) (s : State) : State := { s with INPR := BitVec.ofInt 8 b, FGI := true }

/-- R196 `HostOutputDrain`: with FGO = 0 it returns OUTR and raises FGO (decision D11); otherwise nothing happens
(93_implementation_defined.md U12; assumption log 14). -/
def hostOutputDrain (s : State) : Option Byte × State :=
  if s.FGO then (none, s) else (some s.OUTR, { s with FGO := true })

/-- R197 `HostSetReg(X, v)`, masked as any write. -/
def hostSetReg (X : Reg) (v : Nat) (s : State) : State := regWrite X v s

/-- R197 `HostSetMem(a, v)`: `M[a] := trunc_16(v)`. -/
def hostSetMem (a : Addr) (v : Nat) (s : State) : State := { s with M := memWrite s.M a (BitVec.ofNat 16 v) }

/-- One host event; a byte that a drain returns is appended to `hostTook`. -/
def applyHost (e : HostEvent) (s : State) : State :=
  match e with
  | .input b => hostInput b s
  | .outputDrain =>
    match hostOutputDrain s with
    | (some b, t) => { t with hostTook := t.hostTook ++ [b] }
    | (none, t) => t
  | .setReg X v => hostSetReg X v s
  | .setMem a v => hostSetMem a v s
  | .snapshot => s

/-- A list of host events in their order. -/
def applyHostAll : List HostEvent → State → State
  | [], s => s
  | e :: es, s => applyHostAll es (applyHost e s)

/-- 00_scope.md R6: the host acts between cycles; here it does what the schedule holds for the coming cycle
(assumption log 19). -/
def hostDue (s : State) : State :=
  match s.hostEvents with
  | [] => s
  | es :: rest => applyHostAll es { s with hostEvents := rest }

/-! ## Running the T-states of one instruction -/

/-- At most `n` T-states of `micro`, the host's due events before each, until one ends the instruction (SC = 0). -/
def runStates (micro : State → Result) : Nat → State → Result
  | 0, s => .next s
  | n + 1, s =>
    match micro (beginCycle (hostDue s)) with
    | .next t => if t.SC = .t0 then .next t else runStates micro n t
    | .fault r => .fault r
    | .refused r => .refused r

/-- T0 and T1 of an instruction and the host's events before T0, T1 and T2 (R112, R113): the word is in IR. -/
def fetch (s : State) : State :=
  hostDue (fetchT1 (beginCycle (hostDue (fetchT0 (beginCycle (hostDue s))))))

/-! ## Taking an interrupt (60_exceptions.md R184 to R188) -/

/-- R184: RT0, `TR <- PC; AR <- 0` (decision D6; assumption log 11), and `AC <- 0` if `INT_CLEARS_AC`. -/
def interruptRT0 (s : State) : State :=
  let t := load .TR .PC s
  { t with AR := 0, AC := if s.cfg.intClearsAC then 0 else t.AC, SC := .t1 }

/-- R185: RT1, `M[AR] <- TR; PC <- 0` (decision D17; assumption log 11). -/
def interruptRT1 (s : State) : State := { storeToMemory .TR s with PC := 0, SC := .t2 }

/-- R186: RT2, `PC <- PC + 1; IEN <- 0; R <- 0; SC <- 0`. -/
def interruptRT2 (s : State) : State := { incrementPC s with IEN := false, R := false, SC := .t0 }

/-- R110: the interrupt cycle's T-state, for SC = 0, 1, 2. Other values of SC with R = 1 are produced by nothing
(93_implementation_defined.md U3). -/
def interruptState (s : State) : Result :=
  match s.SC with
  | .t0 => .next (interruptRT0 s)
  | .t1 => .next (interruptRT1 s)
  | .t2 => .next (interruptRT2 s)
  | .t3 => .refused .outsideInvariants
  | .t4 => .refused .outsideInvariants
  | .t5 => .refused .outsideInvariants
  | .t6 => .refused .outsideInvariants

/-- R188: the whole interrupt entry, RT0 to RT2, with the host's events between them. There is no return operation beside
it: "There is no return-from-interrupt instruction" (R189); the return is the program's own BUN indirect through cell 0
(assumption log 28). -/
def takeInterrupt (s : State) : Result := runStates interruptState 3 s

/-! ## Snapshot -/

/-- 10_state.md R38: what `HostSnapshot` reads, but for the display strings (assumption log 25). I is not in it (R23). -/
structure Snapshot where
  AR : Addr
  PC : Addr
  DR : Word
  AC : Word
  IR : Word
  TR : Word
  OUTR : Byte
  INPR : Byte
  E : Bool
  S : Bool
  R : Bool
  IEN : Bool
  FGI : Bool
  FGO : Bool
  M : Memory
  CUR : Option Mnemonic
  BUSREC : Option BusTransfer
  deriving DecidableEq, Repr

/-- 60_exceptions.md R197: `HostSnapshot`. -/
def snapshot (s : State) : Snapshot where
  AR := s.AR
  PC := s.PC
  DR := s.DR
  AC := s.AC
  IR := s.IR
  TR := s.TR
  OUTR := s.OUTR
  INPR := s.INPR
  E := s.E
  S := s.S
  R := s.R
  IEN := s.IEN
  FGI := s.FGI
  FGO := s.FGO
  M := s.M
  CUR := s.CUR
  BUSREC := s.BUSREC

end Sys2Proof.Machine
end

