-- ==== Sys2Proof/Machine/Operands.lean ====
section
/-! DEFINITION. The operand forms: the direct and the one-level indirect address of the memory-reference instructions
(42_memory_reference.md R130, 41_sequencer.md R115), and the shared parts of their execute states. -/

namespace Sys2Proof.Machine

/-- R130: `ea = a` if I = 0, `M[a][11:0]` if I = 1. -/
def effectiveAddress (ind : Bool) (a : Addr) (m : Memory) : Addr :=
  if ind then addrField (memRead m a) else a

/-- R115: T3 of a memory-reference instruction; the indirect fetch if I = 1, otherwise an idle T-state (decision D3;
assumption log 9). Afterwards AR holds the effective address. -/
def memRefT3 (s : State) : State :=
  if s.I then advance (loadFromMemory .AR s) else advance s

/-- R117: T4 of AND, ADD, LDA and ISZ, `DR <- M[AR]`. -/
def operandT4 (s : State) : State := advance (loadFromMemory .DR s)

/-- 44_io_reference.md R171: what INP loads into AC, the byte zero-extended or, with `INP_KEEPS_AC_HIGH`, below the old
high byte (decision D10; assumption log 13). -/
def inpValue (keepHigh : Bool) (ac : Word) (b : Byte) : Word :=
  if keepHigh then (ac &&& 0xFF00) ||| b.setWidth 16 else b.setWidth 16

end Sys2Proof.Machine
end

