-- ==== Sys2Proof/Machine/IoRef.lean ====
section
/-! DEFINITION. The six IO-reference instructions (44_io_reference.md R170 to R176): the whole effect and the completion in one
T-state, T3. None needs a privilege (60_exceptions.md R194) and none waits. -/

namespace Sys2Proof.Machine

/-- R171, T3 of INP: `AC <- INPR`, `FGI <- 0`; not a bus transfer (40_datapath.md R104). -/
def inpState (s : State) : Result :=
  match s.SC with
  | .t0 => .refused .outsideInvariants
  | .t1 => .refused .outsideInvariants
  | .t2 => .refused .outsideInvariants
  | .t3 => .next (complete { s with AC := inpValue s.cfg.inpKeepsACHigh s.AC s.INPR, FGI := false })
  | .t4 => .refused .outsideInvariants
  | .t5 => .refused .outsideInvariants
  | .t6 => .refused .outsideInvariants

/-- R171: INP. -/
def execInp (s : State) : Result := runStates inpState 1 (latchInstr .inp s)

/-- R172, T3 of OUT: `OUTR <- AC`, `FGO <- 0`. -/
def outState (s : State) : Result :=
  match s.SC with
  | .t0 => .refused .outsideInvariants
  | .t1 => .refused .outsideInvariants
  | .t2 => .refused .outsideInvariants
  | .t3 => .next (complete { load .OUTR .AC s with FGO := false })
  | .t4 => .refused .outsideInvariants
  | .t5 => .refused .outsideInvariants
  | .t6 => .refused .outsideInvariants

/-- R172: OUT. -/
def execOut (s : State) : Result := runStates outState 1 (latchInstr .out s)

/-- R173, T3 of SKI: skip if `FGI = 1`. -/
def skiState (s : State) : Result :=
  match s.SC with
  | .t0 => .refused .outsideInvariants
  | .t1 => .refused .outsideInvariants
  | .t2 => .refused .outsideInvariants
  | .t3 => .next (complete (skipIf (skiSkips s) s))
  | .t4 => .refused .outsideInvariants
  | .t5 => .refused .outsideInvariants
  | .t6 => .refused .outsideInvariants

/-- R173: SKI. -/
def execSki (s : State) : Result := runStates skiState 1 (latchInstr .ski s)

/-- R174, T3 of SKO: skip if `FGO = 1`. -/
def skoState (s : State) : Result :=
  match s.SC with
  | .t0 => .refused .outsideInvariants
  | .t1 => .refused .outsideInvariants
  | .t2 => .refused .outsideInvariants
  | .t3 => .next (complete (skipIf (skoSkips s) s))
  | .t4 => .refused .outsideInvariants
  | .t5 => .refused .outsideInvariants
  | .t6 => .refused .outsideInvariants

/-- R174: SKO. -/
def execSko (s : State) : Result := runStates skoState 1 (latchInstr .sko s)

/-- R175, T3 of ION: `IEN <- 1`; the completion reads the new IEN. -/
def ionState (s : State) : Result :=
  match s.SC with
  | .t0 => .refused .outsideInvariants
  | .t1 => .refused .outsideInvariants
  | .t2 => .refused .outsideInvariants
  | .t3 => .next (complete { s with IEN := true })
  | .t4 => .refused .outsideInvariants
  | .t5 => .refused .outsideInvariants
  | .t6 => .refused .outsideInvariants

/-- R175: ION. -/
def execIon (s : State) : Result := runStates ionState 1 (latchInstr .ion s)

/-- R176, T3 of IOF: `IEN <- 0`; the completion reads the new IEN. -/
def iofState (s : State) : Result :=
  match s.SC with
  | .t0 => .refused .outsideInvariants
  | .t1 => .refused .outsideInvariants
  | .t2 => .refused .outsideInvariants
  | .t3 => .next (complete { s with IEN := false })
  | .t4 => .refused .outsideInvariants
  | .t5 => .refused .outsideInvariants
  | .t6 => .refused .outsideInvariants

/-- R176: IOF. -/
def execIof (s : State) : Result := runStates iofState 1 (latchInstr .iof s)

end Sys2Proof.Machine
end

