-- ==== Sys2Proof/Machine/MemRef.lean ====
section
/-! DEFINITION. The seven memory-reference instructions (42_memory_reference.md R130 to R137). Each has its T-states T3 to T6
as one function of SC, used by `cycle`, and its meaning `exec…`: the instruction from T2 (its latches, R114) to its
completion, the host's due events before each T-state. Counter values that an instruction never has are refused
(93_implementation_defined.md U3; assumption log 18). -/

namespace Sys2Proof.Machine

/-- R131, the execute states of AND. -/
def andState (s : State) : Result :=
  match s.SC with
  | .t0 => .refused .outsideInvariants
  | .t1 => .refused .outsideInvariants
  | .t2 => .refused .outsideInvariants
  | .t3 => .next (memRefT3 s)
  | .t4 => .next (operandT4 s)
  | .t5 => .next (complete (aluToAC .AND (some .AC) (some .DR) s))
  | .t6 => .refused .outsideInvariants

/-- R131: AND, from its T2 to its completion. -/
def execAnd (ind : Bool) (addr : Addr) (s : State) : Result :=
  runStates andState 3 (latchInstr (.and ind addr) s)

/-- R132, the execute states of ADD. -/
def addState (s : State) : Result :=
  match s.SC with
  | .t0 => .refused .outsideInvariants
  | .t1 => .refused .outsideInvariants
  | .t2 => .refused .outsideInvariants
  | .t3 => .next (memRefT3 s)
  | .t4 => .next (operandT4 s)
  | .t5 => .next (complete (aluToAC .ADD (some .AC) (some .DR) s))
  | .t6 => .refused .outsideInvariants

/-- R132: ADD. -/
def execAdd (ind : Bool) (addr : Addr) (s : State) : Result :=
  runStates addState 3 (latchInstr (.add ind addr) s)

/-- R133, the execute states of LDA; the operand passes through the ALU. -/
def ldaState (s : State) : Result :=
  match s.SC with
  | .t0 => .refused .outsideInvariants
  | .t1 => .refused .outsideInvariants
  | .t2 => .refused .outsideInvariants
  | .t3 => .next (memRefT3 s)
  | .t4 => .next (operandT4 s)
  | .t5 => .next (complete (aluToAC .LDA (some .DR) none s))
  | .t6 => .refused .outsideInvariants

/-- R133: LDA. -/
def execLda (ind : Bool) (addr : Addr) (s : State) : Result :=
  runStates ldaState 3 (latchInstr (.lda ind addr) s)

/-- R134, the execute states of STA. -/
def staState (s : State) : Result :=
  match s.SC with
  | .t0 => .refused .outsideInvariants
  | .t1 => .refused .outsideInvariants
  | .t2 => .refused .outsideInvariants
  | .t3 => .next (memRefT3 s)
  | .t4 => .next (complete (storeToMemory .AC s))
  | .t5 => .refused .outsideInvariants
  | .t6 => .refused .outsideInvariants

/-- R134: STA. -/
def execSta (ind : Bool) (addr : Addr) (s : State) : Result :=
  runStates staState 2 (latchInstr (.sta ind addr) s)

/-- R135, the execute states of BUN. -/
def bunState (s : State) : Result :=
  match s.SC with
  | .t0 => .refused .outsideInvariants
  | .t1 => .refused .outsideInvariants
  | .t2 => .refused .outsideInvariants
  | .t3 => .next (memRefT3 s)
  | .t4 => .next (complete (load .PC .AR s))
  | .t5 => .refused .outsideInvariants
  | .t6 => .refused .outsideInvariants

/-- R135: BUN. -/
def execBun (ind : Bool) (addr : Addr) (s : State) : Result :=
  runStates bunState 2 (latchInstr (.bun ind addr) s)

/-- R136, the execute states of BSA; at T4 the store and the increment both use the old AR (decision D5; assumption log 10). -/
def bsaState (s : State) : Result :=
  match s.SC with
  | .t0 => .refused .outsideInvariants
  | .t1 => .refused .outsideInvariants
  | .t2 => .refused .outsideInvariants
  | .t3 => .next (memRefT3 s)
  | .t4 => .next (advance { storeToMemory .PC s with AR := s.AR + 1 })
  | .t5 => .next (complete (load .PC .AR s))
  | .t6 => .refused .outsideInvariants

/-- R136: BSA. -/
def execBsa (ind : Bool) (addr : Addr) (s : State) : Result :=
  runStates bsaState 3 (latchInstr (.bsa ind addr) s)

/-- R137, the execute states of ISZ; the skip looks at the incremented DR (90_conflicts.md C1). -/
def iszState (s : State) : Result :=
  match s.SC with
  | .t0 => .refused .outsideInvariants
  | .t1 => .refused .outsideInvariants
  | .t2 => .refused .outsideInvariants
  | .t3 => .next (memRefT3 s)
  | .t4 => .next (operandT4 s)
  | .t5 => .next (advance { s with DR := s.DR + 1 })
  | .t6 => .next (complete (skipIf (iszSkips s) (storeToMemory .DR s)))

/-- R137: ISZ. -/
def execIsz (ind : Bool) (addr : Addr) (s : State) : Result :=
  runStates iszState 4 (latchInstr (.isz ind addr) s)

end Sys2Proof.Machine
end

