-- ==== Sys2Proof/Machine/RegRef.lean ====
section
/-! DEFINITION. The twelve register-reference instructions (43_register_reference.md R150 to R162): the whole effect and the
completion in one T-state, T3. -/

namespace Sys2Proof.Machine

/-- R151, T3 of CLA: `AC <- 0`. -/
def claState (s : State) : Result :=
  match s.SC with
  | .t0 => .refused .outsideInvariants
  | .t1 => .refused .outsideInvariants
  | .t2 => .refused .outsideInvariants
  | .t3 => .next (complete { s with AC := 0 })
  | .t4 => .refused .outsideInvariants
  | .t5 => .refused .outsideInvariants
  | .t6 => .refused .outsideInvariants

/-- R151: CLA. -/
def execCla (s : State) : Result := runStates claState 1 (latchInstr .cla s)

/-- R152, T3 of CLE: `E <- 0`. -/
def cleState (s : State) : Result :=
  match s.SC with
  | .t0 => .refused .outsideInvariants
  | .t1 => .refused .outsideInvariants
  | .t2 => .refused .outsideInvariants
  | .t3 => .next (complete { s with E := false })
  | .t4 => .refused .outsideInvariants
  | .t5 => .refused .outsideInvariants
  | .t6 => .refused .outsideInvariants

/-- R152: CLE. -/
def execCle (s : State) : Result := runStates cleState 1 (latchInstr .cle s)

/-- R153, T3 of CMA: `AC <- ~AC` through the ALU. -/
def cmaState (s : State) : Result :=
  match s.SC with
  | .t0 => .refused .outsideInvariants
  | .t1 => .refused .outsideInvariants
  | .t2 => .refused .outsideInvariants
  | .t3 => .next (complete (aluToAC .CMA (some .AC) none s))
  | .t4 => .refused .outsideInvariants
  | .t5 => .refused .outsideInvariants
  | .t6 => .refused .outsideInvariants

/-- R153: CMA. -/
def execCma (s : State) : Result := runStates cmaState 1 (latchInstr .cma s)

/-- R154, T3 of CME: `E <- ~E` through the ALU. -/
def cmeState (s : State) : Result :=
  match s.SC with
  | .t0 => .refused .outsideInvariants
  | .t1 => .refused .outsideInvariants
  | .t2 => .refused .outsideInvariants
  | .t3 => .next (complete (aluToAC .CME none none s))
  | .t4 => .refused .outsideInvariants
  | .t5 => .refused .outsideInvariants
  | .t6 => .refused .outsideInvariants

/-- R154: CME. -/
def execCme (s : State) : Result := runStates cmeState 1 (latchInstr .cme s)

/-- R155, T3 of CIR: the ring {E, AC} one place to the right, through the ALU. -/
def cirState (s : State) : Result :=
  match s.SC with
  | .t0 => .refused .outsideInvariants
  | .t1 => .refused .outsideInvariants
  | .t2 => .refused .outsideInvariants
  | .t3 => .next (complete (aluToAC .CIR (some .AC) none s))
  | .t4 => .refused .outsideInvariants
  | .t5 => .refused .outsideInvariants
  | .t6 => .refused .outsideInvariants

/-- R155: CIR. -/
def execCir (s : State) : Result := runStates cirState 1 (latchInstr .cir s)

/-- R156, T3 of CIL: the ring {E, AC} one place to the left, through the ALU. -/
def cilState (s : State) : Result :=
  match s.SC with
  | .t0 => .refused .outsideInvariants
  | .t1 => .refused .outsideInvariants
  | .t2 => .refused .outsideInvariants
  | .t3 => .next (complete (aluToAC .CIL (some .AC) none s))
  | .t4 => .refused .outsideInvariants
  | .t5 => .refused .outsideInvariants
  | .t6 => .refused .outsideInvariants

/-- R156: CIL. -/
def execCil (s : State) : Result := runStates cilState 1 (latchInstr .cil s)

/-- R157, T3 of INC: `AC <- AC + 1`, not through the ALU, E unchanged (decision D18; assumption log 16). -/
def incState (s : State) : Result :=
  match s.SC with
  | .t0 => .refused .outsideInvariants
  | .t1 => .refused .outsideInvariants
  | .t2 => .refused .outsideInvariants
  | .t3 => .next (complete { s with AC := s.AC + 1 })
  | .t4 => .refused .outsideInvariants
  | .t5 => .refused .outsideInvariants
  | .t6 => .refused .outsideInvariants

/-- R157: INC. -/
def execInc (s : State) : Result := runStates incState 1 (latchInstr .inc s)

/-- R158, T3 of SPA: skip if `AC[15] = 0`. -/
def spaState (s : State) : Result :=
  match s.SC with
  | .t0 => .refused .outsideInvariants
  | .t1 => .refused .outsideInvariants
  | .t2 => .refused .outsideInvariants
  | .t3 => .next (complete (skipIf (spaSkips s) s))
  | .t4 => .refused .outsideInvariants
  | .t5 => .refused .outsideInvariants
  | .t6 => .refused .outsideInvariants

/-- R158: SPA. -/
def execSpa (s : State) : Result := runStates spaState 1 (latchInstr .spa s)

/-- R159, T3 of SNA: skip if `AC[15] = 1`. -/
def snaState (s : State) : Result :=
  match s.SC with
  | .t0 => .refused .outsideInvariants
  | .t1 => .refused .outsideInvariants
  | .t2 => .refused .outsideInvariants
  | .t3 => .next (complete (skipIf (snaSkips s) s))
  | .t4 => .refused .outsideInvariants
  | .t5 => .refused .outsideInvariants
  | .t6 => .refused .outsideInvariants

/-- R159: SNA. -/
def execSna (s : State) : Result := runStates snaState 1 (latchInstr .sna s)

/-- R160, T3 of SZA: skip if `AC = 0`. -/
def szaState (s : State) : Result :=
  match s.SC with
  | .t0 => .refused .outsideInvariants
  | .t1 => .refused .outsideInvariants
  | .t2 => .refused .outsideInvariants
  | .t3 => .next (complete (skipIf (szaSkips s) s))
  | .t4 => .refused .outsideInvariants
  | .t5 => .refused .outsideInvariants
  | .t6 => .refused .outsideInvariants

/-- R160: SZA. -/
def execSza (s : State) : Result := runStates szaState 1 (latchInstr .sza s)

/-- R161, T3 of SZE: skip if `E = 0`. -/
def szeState (s : State) : Result :=
  match s.SC with
  | .t0 => .refused .outsideInvariants
  | .t1 => .refused .outsideInvariants
  | .t2 => .refused .outsideInvariants
  | .t3 => .next (complete (skipIf (szeSkips s) s))
  | .t4 => .refused .outsideInvariants
  | .t5 => .refused .outsideInvariants
  | .t6 => .refused .outsideInvariants

/-- R161: SZE. -/
def execSze (s : State) : Result := runStates szeState 1 (latchInstr .sze s)

/-- R162, T3 of HLT: `S <- 0`. -/
def hltState (s : State) : Result :=
  match s.SC with
  | .t0 => .refused .outsideInvariants
  | .t1 => .refused .outsideInvariants
  | .t2 => .refused .outsideInvariants
  | .t3 => .next (complete { s with S := false })
  | .t4 => .refused .outsideInvariants
  | .t5 => .refused .outsideInvariants
  | .t6 => .refused .outsideInvariants

/-- R162: HLT. -/
def execHlt (s : State) : Result := runStates hltState 1 (latchInstr .hlt s)

end Sys2Proof.Machine
end

