-- ==== Sys2Proof/Machine/Sequencer.lean ====
section
/-! DEFINITION. The CPU sequencer (41_sequencer.md R110 to R119): `cycle` is the spec's Cycle, one T-state; `tick` is the
host's due events and then one cycle. The undecodable word (R118) and the running of whole instructions T-state by T-state
stand here too. -/

namespace Sys2Proof.Machine

/-! ## The undecodable word -/

/-- R118: T3 up to the parameter `UNDEF_LAST_T` is idle, and that T-state completes (decision D4; assumption log 9). -/
def idleFrom (s : State) : Result :=
  if s.SC = s.cfg.undefLastT then .next (complete s)
  else if s.SC.toNat < s.cfg.undefLastT.toNat then .next (advance s)
  else .refused .outsideInvariants

/-- R118: the execute states of CUR = NONE. It makes no memory access, whatever I is (decision D14; assumption log 17). -/
def idleState (s : State) : Result :=
  match s.SC with
  | .t0 => .refused .outsideInvariants
  | .t1 => .refused .outsideInvariants
  | .t2 => .refused .outsideInvariants
  | .t3 => idleFrom s
  | .t4 => idleFrom s
  | .t5 => idleFrom s
  | .t6 => idleFrom s

/-- R118: an undecodable word `w` from T2 to its completion. -/
def runUndecodable (w : Word) (s : State) : Result := runStates idleState 4 (latchWord w none s)

/-! ## One cycle -/

/-- R115, R117: T3 to T6 dispatch on the current instruction. -/
def executeState (s : State) : Result :=
  match s.CUR with
  | none => idleState s
  | some .AND => andState s
  | some .ADD => addState s
  | some .LDA => ldaState s
  | some .STA => staState s
  | some .BUN => bunState s
  | some .BSA => bsaState s
  | some .ISZ => iszState s
  | some .CLA => claState s
  | some .CLE => cleState s
  | some .CMA => cmaState s
  | some .CME => cmeState s
  | some .CIR => cirState s
  | some .CIL => cilState s
  | some .INC => incState s
  | some .SPA => spaState s
  | some .SNA => snaState s
  | some .SZA => szaState s
  | some .SZE => szeState s
  | some .HLT => hltState s
  | some .INP => inpState s
  | some .OUT => outState s
  | some .SKI => skiState s
  | some .SKO => skoState s
  | some .ION => ionState s
  | some .IOF => iofState s

/-- R112 to R117: one T-state of the instruction cycle. -/
def instructionState (s : State) : Result :=
  match s.SC with
  | .t0 => .next (fetchT0 s)
  | .t1 => .next (fetchT1 s)
  | .t2 => .next (decodeT2 s)
  | .t3 => executeState s
  | .t4 => executeState s
  | .t5 => executeState s
  | .t6 => executeState s

/-- R110: `Cycle`. R is tested first, "regardless of S" (R187); with R = 0 and S = 0 nothing changes at all (R111,
decision D7; assumption log 12). -/
def cycle (s : State) : Result :=
  if s.R then interruptState (beginCycle s)
  else if s.S then instructionState (beginCycle s)
  else .next s

/-- 00_scope.md R6: what the host does before the coming cycle, then the cycle. -/
def tick (s : State) : Result := cycle (hostDue s)

/-! ## Cycles up to a boundary -/

/-- 70_reset_and_hazards.md R218: the end of a run, S = 0 and R = 0. -/
def ended (s : State) : Bool := !s.S && !s.R

/-- At most `n` ticks, until one completes (SC = 0) or the machine is halted. -/
def runTicks : Nat → State → Result
  | 0, s => .next s
  | n + 1, s =>
    match tick s with
    | .next t => if t.SC = .t0 || ended t then .next t else runTicks n t
    | .fault r => .fault r
    | .refused r => .refused r

/-- 41_sequencer.md R119: how many ticks, up to `n`, bring the machine to SC = 0. -/
def ticksToBoundary : Nat → State → Option Nat
  | 0, _ => none
  | n + 1, s =>
    match tick s with
    | .next t => if t.SC = .t0 then some 1 else (ticksToBoundary n t).map (· + 1)
    | .fault _ => none
    | .refused _ => none

end Sys2Proof.Machine
end

