-- ==== Sys2Proof/Machine/Step.lean ====
section
/-! DEFINITION. One step of the model: the cycles up to the next instruction boundary (assumption log 1). -/

namespace Sys2Proof.Machine

/-- R114, R115: the word in IR is decoded and the instruction run; an undecodable word idles (R118). -/
def runFetched (s : State) : Host.Outcome State Fault Refusal :=
  match decode s.cfg.opc s.IR with
  | .ok i => exec i s
  | .error _ => runUndecodable s.IR s

/-- R110, R120, R188: with R = 1 the interrupt cycle up to its end; halted, one cycle, which changes nothing but what the
host does; at a boundary one whole instruction, fetched at PC; in the middle of an instruction the rest of it. -/
def step (s : State) : Host.Outcome State Fault Refusal :=
  if s.R then takeInterrupt s
  else if s.S then
    match s.SC with
    | .t0 => runFetched (fetch s)
    | .t1 => runTicks 6 s
    | .t2 => runTicks 5 s
    | .t3 => runTicks 4 s
    | .t4 => runTicks 3 s
    | .t5 => runTicks 2 s
    | .t6 => runTicks 1 s
  else tick s

/-- The state in which the next step fetches and runs the instruction word `w`: the word in the cell at PC, the sequencer
running at an instruction boundary, no host event due (assumption log 5, 29). -/
def State.withFetchWord (s : State) (nbits w : Nat) : State :=
  { s with
    M := memWrite s.M s.PC (BitVec.ofNat 16 (w % 2 ^ nbits))
    SC := .t0
    R := false
    S := true
    hostEvents := [] }

end Sys2Proof.Machine
end

