-- ==== Sys2Proof/Machine/InstructionTable.lean ====
section
/-! DEFINITION. The Instruction Table as data (30_encoding.md R69): its 25 records and its two lookups. `from_opcode` is
`decode` (R63). The record's description text is not in the spec (assumption log 25). -/

namespace Sys2Proof.Machine

/-- R69: `{mnemonic, opcode pattern, is_memory_reference, description}`, without the description. The pattern of a
memory-reference entry is its word with the address and the indirect bit 0. -/
structure TableEntry where
  mnemonic : String
  current : Mnemonic
  pattern : Word
  isMemoryReference : Bool
  deriving DecidableEq, Repr

/-- The entry of an instruction (for a memory-reference one, taken with address 0 and direct). -/
def entryOf (t : OpcodeTable) (name : String) (i : Instr) : TableEntry where
  mnemonic := name
  current := mnemonicOf i
  pattern := encode t i
  isMemoryReference := i.isMemRef

/-- R69: the memory-reference entries, R64. -/
def memRefEntries (t : OpcodeTable) : List TableEntry :=
  [entryOf t "AND" (.and false 0), entryOf t "ADD" (.add false 0), entryOf t "LDA" (.lda false 0),
   entryOf t "STA" (.sta false 0), entryOf t "BUN" (.bun false 0), entryOf t "BSA" (.bsa false 0),
   entryOf t "ISZ" (.isz false 0)]

/-- R69: the register-reference entries, R65. -/
def regRefEntries (t : OpcodeTable) : List TableEntry :=
  [entryOf t "CLA" .cla, entryOf t "CLE" .cle, entryOf t "CMA" .cma, entryOf t "CME" .cme, entryOf t "CIR" .cir,
   entryOf t "CIL" .cil, entryOf t "INC" .inc, entryOf t "SPA" .spa, entryOf t "SNA" .sna, entryOf t "SZA" .sza,
   entryOf t "SZE" .sze, entryOf t "HLT" .hlt]

/-- R69: the IO-reference entries, R66. -/
def ioRefEntries (t : OpcodeTable) : List TableEntry :=
  [entryOf t "INP" .inp, entryOf t "OUT" .out, entryOf t "SKI" .ski, entryOf t "SKO" .sko, entryOf t "ION" .ion,
   entryOf t "IOF" .iof]

/-- R69: the "25 fixed entries". -/
def instructionTable (t : OpcodeTable) : List TableEntry := memRefEntries t ++ regRefEntries t ++ ioRefEntries t

/-- R69: the "linear search by mnemonic string", by exact comparison, so only the table's capitals are found. DESIGN CHOICE:
91_not_in_source.md N16 and decision D21 leave the case of mnemonics undecided (assumption log 32). -/
def fromMnemonic (t : OpcodeTable) (text : String) : Option TableEntry :=
  (instructionTable t).find? (fun e => e.mnemonic == text)

end Sys2Proof.Machine
end

