-- ==== Sys2Proof/Safety.lean ====
section
/-! DEFINITION. What a run may look like: the invariants of 10_state.md R36, the moves of the two agents (00_scope.md R6)
and the states they reach from a constructed machine (70_reset_and_hazards.md R210). -/

namespace Sys2Proof.Machine

/-- 41_sequencer.md R119: the last T-state of the current instruction. -/
def lastSC (c : Config) (cur : Option Mnemonic) : SC :=
  match cur with
  | none => c.undefLastT
  | some .AND => .t5
  | some .ADD => .t5
  | some .LDA => .t5
  | some .STA => .t4
  | some .BUN => .t4
  | some .BSA => .t5
  | some .ISZ => .t6
  | some .CLA => .t3
  | some .CLE => .t3
  | some .CMA => .t3
  | some .CME => .t3
  | some .CIR => .t3
  | some .CIL => .t3
  | some .INC => .t3
  | some .SPA => .t3
  | some .SNA => .t3
  | some .SZA => .t3
  | some .SZE => .t3
  | some .HLT => .t3
  | some .INP => .t3
  | some .OUT => .t3
  | some .SKI => .t3
  | some .SKO => .t3
  | some .ION => .t3
  | some .IOF => .t3

/-- R36 items 3 and 4, and R111's "in reachable states the gate is met with SC = 0": the control states that occur. -/
def controlOk (s : State) : Bool :=
  if s.R then decide (s.SC.toNat ≤ 2)
  else if s.S then decide (s.SC.toNat ≤ (lastSC s.cfg s.CUR).toNat) || decide (s.SC.toNat ≤ 2)
  else decide (s.SC = .t0)

/-- R36: the invariants that the types do not carry (items 1 and 2 are the field types), with the canonical form of memory
and the range of the parameter UNDEF_LAST_T. -/
structure Invariants (s : State) : Prop where
  control : controlOk s = true
  memory : Memory.wf s.M = true
  config : s.cfg.wf = true

/-- 00_scope.md R6: the members of an execution. -/
inductive Move where
  | cycle
  | host (e : HostEvent)
  deriving DecidableEq, Repr

/-- One member of an execution. -/
def applyMove (m : Move) (s : State) : Result :=
  match m with
  | .cycle => cycle s
  | .host e => .next (applyHost e s)

/-- 00_scope.md R6: the states that cycles and host events, in any order the host chooses, reach from a machine constructed
from a canonical image with any parameters whose RESET is a control state that the spec gives a meaning. -/
inductive Reachable : State → Prop
  | start (c : Config) (image : Memory) (hc : c.wf = true) (hm : Memory.wf image = true)
      (hr : controlOk (construct c image) = true) : Reachable (construct c image)
  | move (s t : State) (m : Move) (hs : Reachable s) (h : applyMove m s = .next t) : Reachable t

end Sys2Proof.Machine
end

