-- ==== Sys2Proof/Certificates/Slice0/Obligations.lean ====
section
/-! DEFINITION. The statements for the provers. `s.hostEvents = []` says what 41_sequencer.md R120 says with "let no host
event happen until the next boundary". Every statement holds for all values of the parameters that State carries
(00_scope.md R5), the opcode table among them, unless it names one. -/

open Sys2Proof Sys2Proof.Machine

/-! ## Encoding -/

/-- 30_encoding.md sections 1 to 3: no bit of an encoding is dropped, in any legal opcode table (legal: section 1). -/
def Obligations.DecodeOfEncodeIsInstruction : Prop :=
  ∀ (o : OpcodeTable) (i : Instr), o.wf = true → decode o (encode o i) = .ok i

/-- 30_encoding.md section 3: a word that decodes is the encoding of what it decodes to, so two words never mean the same;
with any opcode table, legal or not. -/
def Obligations.EncodeOfDecodeIsWord : Prop :=
  ∀ (o : OpcodeTable) (w : Word) (i : Instr), decode o w = .ok i → encode o i = w

/-- 30_encoding.md section 4 (R67): the decoder rejects a word exactly when its bits 14:12 are 7 and it is none of the 18
patterns of a legal opcode table, always by the one name notFound; the default table (decision D1, assumption log 7) is
legal and has the patterns listed. -/
def Obligations.UndecodableWordsExactly : Prop :=
  (∀ (o : OpcodeTable) (w : Word), o.wf = true →
    ((∃ r, decode o w = .error r) ↔ opField w = 7 ∧ w ∉ o.patterns) ∧
    (∀ r, decode o w = .error r → r = .notFound)) ∧
  defaultOpc.wf = true ∧
  defaultOpc.patterns = [0x7800, 0x7400, 0x7200, 0x7100, 0x7080, 0x7040, 0x7020, 0x7010, 0x7008, 0x7004, 0x7002, 0x7001,
    0xF800, 0xF400, 0xF200, 0xF100, 0xF080, 0xF040]

/-- 95_test_vectors.md section 2.2, K1 to K14, and seven words more: words written out from the encodings decode as the
spec says, with the default opcode table (decision D1, assumption log 7). -/
def Obligations.SampleWordsDecodeAsTheSpecSays : Prop :=
  decode defaultOpc 0x0000 = .ok (.and false 0x000) ∧
  decode defaultOpc 0x8FFF = .ok (.and true 0xFFF) ∧
  decode defaultOpc 0x2064 = .ok (.lda false 0x064) ∧
  decode defaultOpc 0xE123 = .ok (.isz true 0x123) ∧
  decode defaultOpc 0x6FFF = .ok (.isz false 0xFFF) ∧
  decode defaultOpc 0x7001 = .ok .hlt ∧
  decode defaultOpc 0x7000 = .error .notFound ∧
  decode defaultOpc 0x7003 = .error .notFound ∧
  decode defaultOpc 0x7801 = .error .notFound ∧
  decode defaultOpc 0xF800 = .ok .inp ∧
  decode defaultOpc 0xF000 = .error .notFound ∧
  decode defaultOpc 0xF020 = .error .notFound ∧
  decode defaultOpc 0xFFFF = .error .notFound ∧
  decode defaultOpc 0xF001 = .error .notFound ∧
  decode defaultOpc 0x1200 = .ok (.add false 0x200) ∧
  decode defaultOpc 0x3101 = .ok (.sta false 0x101) ∧
  decode defaultOpc 0xC200 = .ok (.bun true 0x200) ∧
  decode defaultOpc 0x5FFF = .ok (.bsa false 0xFFF) ∧
  decode defaultOpc 0x7800 = .ok .cla ∧
  decode defaultOpc 0x7010 = .ok .spa ∧
  decode defaultOpc 0xF080 = .ok .ion

/-- 30_encoding.md section 5: 25 fixed entries; the search by mnemonic finds each; an entry's pattern decodes to its
instruction; for every legal opcode table. (That the search is case-sensitive is the model's choice, assumption log 32;
the statement does not use it.) -/
def Obligations.InstructionTableLookupsAgree : Prop :=
  ∀ o : OpcodeTable, o.wf = true →
    (instructionTable o).length = 25 ∧
    ∀ e ∈ instructionTable o, fromMnemonic o e.mnemonic = some e ∧ currentOf o e.pattern = some e.current ∧
      (opField e.pattern ≠ 7 ↔ e.isMemoryReference = true)

/-! ## Datapath -/

/-- 40_datapath.md R90: every register keeps the low bits of any value written, at its own width, and nothing else
changes. -/
def Obligations.RegWriteMasksToWidth : Prop :=
  ∀ (v : Nat) (s : State),
    ((regWrite .AR v s).AR.toNat = v % 2 ^ 12 ∧ regWrite .AR v s = { s with AR := (regWrite .AR v s).AR }) ∧
    ((regWrite .PC v s).PC.toNat = v % 2 ^ 12 ∧ regWrite .PC v s = { s with PC := (regWrite .PC v s).PC }) ∧
    ((regWrite .OUTR v s).OUTR.toNat = v % 2 ^ 8 ∧ regWrite .OUTR v s = { s with OUTR := (regWrite .OUTR v s).OUTR }) ∧
    ((regWrite .INPR v s).INPR.toNat = v % 2 ^ 8 ∧ regWrite .INPR v s = { s with INPR := (regWrite .INPR v s).INPR }) ∧
    ((regWrite .DR v s).DR.toNat = v % 2 ^ 16 ∧ regWrite .DR v s = { s with DR := (regWrite .DR v s).DR }) ∧
    ((regWrite .AC v s).AC.toNat = v % 2 ^ 16 ∧ regWrite .AC v s = { s with AC := (regWrite .AC v s).AC }) ∧
    ((regWrite .IR v s).IR.toNat = v % 2 ^ 16 ∧ regWrite .IR v s = { s with IR := (regWrite .IR v s).IR }) ∧
    ((regWrite .TR v s).TR.toNat = v % 2 ^ 16 ∧ regWrite .TR v s = { s with TR := (regWrite .TR v s).TR })

/-- 40_datapath.md section 2, ADD: the exact sum of two words is the result word plus 65536 times the carry; the carry is
the new E, or E is kept when the parameter ADD_CARRY_TO_E (decision D2, assumption log 8) is false. -/
def Obligations.AluAddIsExactSumWithCarry : Prop :=
  ∀ (A B : Word) (E : Bool),
    (∃ r c, alu true .ADD A B E = (some r, c) ∧ A.toNat + B.toNat = r.toNat + 65536 * c.toNat) ∧
    (∃ r, alu false .ADD A B E = (some r, E) ∧ r.toNat = (A.toNat + B.toNat) % 65536)

/-- 40_datapath.md R99, R100: CIR and CIL rotate the 17-bit ring {E, A}, read as the number E * 65536 + A, by one place.
-/
def Obligations.CirculatesRotateTheSeventeenBitRing : Prop :=
  ∀ (c : Bool) (A B : Word) (E : Bool),
    (∃ r e, alu c .CIR A B E = (some r, e) ∧
      r.toNat + 65536 * e.toNat =
        (A.toNat + 65536 * E.toNat) / 2 + 65536 * ((A.toNat + 65536 * E.toNat) % 2)) ∧
    (∃ r e, alu c .CIL A B E = (some r, e) ∧
      r.toNat + 65536 * e.toNat =
        (2 * (A.toNat + 65536 * E.toNat)) % 131072 + (A.toNat + 65536 * E.toNat) / 65536)

/-- 95_test_vectors.md A16, A17: CIL undoes CIR and CIR undoes CIL, on any AC and E. -/
def Obligations.CilAndCirUndoEachOther : Prop :=
  ∀ (A : Word) (E : Bool),
    (cilResult (cirResult A E) (A.getLsbD 0) = A ∧ (cirResult A E).getLsbD 15 = E) ∧
    (cirResult (cilResult A E) (A.getLsbD 15) = A ∧ (cilResult A E).getLsbD 0 = E)

/-! ## Memory -/

/-- 20_memory.md sections 1 and 5: memory is its 4096 words and nothing more; canonical memories that read alike in every
cell are equal data. -/
def Obligations.CanonicalMemoriesThatReadAlikeAreEqual : Prop :=
  ∀ m n : Memory, Memory.wf m = true → Memory.wf n = true → (∀ a : Addr, memRead m a = memRead n a) → m = n

/-! ## T-states of the sequencer -/

/-- 41_sequencer.md section 2: T0, T1 and T2 of a running machine. That I is latched for every word is decision D14
(assumption log 17); what BUSREC shows is decision D16 (assumption log 20). -/
def Obligations.FetchAndDecodeCycles : Prop :=
  ∀ s : State, s.R = false → s.S = true →
    (s.SC = .t0 →
      cycle s = .next { s with AR := s.PC, SC := .t1, BUSREC := some ⟨.PC, .AR, s.PC.setWidth 16⟩ }) ∧
    (s.SC = .t1 →
      cycle s = .next { s with
        IR := memRead s.M s.AR
        PC := s.PC + 1
        SC := .t2
        MLATCH := memRead s.M s.AR
        BUSREC := some ⟨.MEM, .IR, memRead s.M s.AR⟩ }) ∧
    (s.SC = .t2 →
      cycle s = .next { s with
        CUR := currentOf s.cfg.opc s.IR
        AR := addrField s.IR
        I := indirectField s.IR
        SC := .t3
        BUSREC := some ⟨.IR, .AR, s.IR⟩ })

/-- 41_sequencer.md section 3 (decisions D3, D14; assumption log 9, 17): T3 of a register- or IO-reference instruction
completes (its whole effect: FormatXExecuteStates), T3 of a memory-reference instruction makes the one indirect fetch or
is idle; for NONE it is idle even with I = 1, unless UNDEF_LAST_T ends the word there (decision D4). BUSREC: decision D16,
assumption log 20. -/
def Obligations.ThreeWayBranchAtT3 : Prop :=
  ∀ s : State, s.R = false → s.S = true → s.SC = .t3 →
    (∀ i : Instr, i.isMemRef = false → s.CUR = some (mnemonicOf i) →
      ∃ t, cycle s = .next t ∧ t.SC = .t0 ∧ t.R = (t.IEN && (t.FGI || t.FGO)) ∧ t.AR = s.AR ∧ t.DR = s.DR ∧ t.IR = s.IR ∧
        t.TR = s.TR ∧ t.INPR = s.INPR ∧ t.I = s.I ∧ t.CUR = s.CUR ∧ t.M = s.M ∧ t.MLATCH = s.MLATCH ∧ t.cfg = s.cfg ∧
        t.hostEvents = s.hostEvents ∧ t.hostTook = s.hostTook) ∧
    (s.CUR ∈ [some .AND, some .ADD, some .LDA, some .STA, some .BUN, some .BSA, some .ISZ] →
      (s.I = true →
        cycle s = .next { s with
          AR := addrField (memRead s.M s.AR)
          SC := .t4
          MLATCH := memRead s.M s.AR
          BUSREC := some ⟨.MEM, .AR, memRead s.M s.AR⟩ }) ∧
      (s.I = false → cycle s = .next { s with SC := .t4, BUSREC := none })) ∧
    (s.CUR = none →
      (s.cfg.undefLastT = .t4 ∨ s.cfg.undefLastT = .t5 ∨ s.cfg.undefLastT = .t6 →
        cycle s = .next { s with SC := .t4, BUSREC := none }) ∧
      (s.cfg.undefLastT = .t3 →
        cycle s = .next { s with SC := .t0, R := s.IEN && (s.FGI || s.FGO), BUSREC := none }))

/-- 43_register_reference.md and 44_io_reference.md, the T3 of each of the 18 instructions as one cycle, from every state,
also one that a host write has put between T2 and T3. Skip polarities: decision D9, assumption log 15; E kept: decision
D18, log 16; INP's high byte: decision D10, log 13; BUSREC and ALUREC: decision D16, log 20, 21. -/
def Obligations.FormatXExecuteStates : Prop :=
  ∀ s : State, s.R = false → s.S = true → s.SC = .t3 →
    (s.CUR = some .CLA →
      cycle s = .next { s with
        AC := 0, SC := .t0, R := s.IEN && (s.FGI || s.FGO),
        BUSREC := none }) ∧
    (s.CUR = some .CLE →
      cycle s = .next { s with
        E := false, SC := .t0, R := s.IEN && (s.FGI || s.FGO),
        BUSREC := none }) ∧
    (s.CUR = some .CMA →
      cycle s = .next { s with
        AC := ~~~s.AC, SC := .t0, R := s.IEN && (s.FGI || s.FGO),
        BUSREC := none, ALUREC := some ⟨.CMA, some .AC, none⟩ }) ∧
    (s.CUR = some .CME →
      cycle s = .next { s with
        E := !s.E, SC := .t0, R := s.IEN && (s.FGI || s.FGO),
        BUSREC := none, ALUREC := some ⟨.CME, none, none⟩ }) ∧
    (s.CUR = some .CIR →
      cycle s = .next { s with
        AC := cirResult s.AC s.E, E := s.AC.getLsbD 0, SC := .t0, R := s.IEN && (s.FGI || s.FGO),
        BUSREC := none, ALUREC := some ⟨.CIR, some .AC, none⟩ }) ∧
    (s.CUR = some .CIL →
      cycle s = .next { s with
        AC := cilResult s.AC s.E, E := s.AC.getLsbD 15, SC := .t0, R := s.IEN && (s.FGI || s.FGO),
        BUSREC := none, ALUREC := some ⟨.CIL, some .AC, none⟩ }) ∧
    (s.CUR = some .INC →
      cycle s = .next { s with
        AC := s.AC + 1, SC := .t0, R := s.IEN && (s.FGI || s.FGO),
        BUSREC := none }) ∧
    (s.CUR = some .SPA →
      cycle s = .next { s with
        PC := if s.AC.getLsbD 15 = false then s.PC + 1 else s.PC, SC := .t0, R := s.IEN && (s.FGI || s.FGO),
        BUSREC := none }) ∧
    (s.CUR = some .SNA →
      cycle s = .next { s with
        PC := if s.AC.getLsbD 15 = true then s.PC + 1 else s.PC, SC := .t0, R := s.IEN && (s.FGI || s.FGO),
        BUSREC := none }) ∧
    (s.CUR = some .SZA →
      cycle s = .next { s with
        PC := if s.AC = 0 then s.PC + 1 else s.PC, SC := .t0, R := s.IEN && (s.FGI || s.FGO),
        BUSREC := none }) ∧
    (s.CUR = some .SZE →
      cycle s = .next { s with
        PC := if s.E = false then s.PC + 1 else s.PC, SC := .t0, R := s.IEN && (s.FGI || s.FGO),
        BUSREC := none }) ∧
    (s.CUR = some .HLT →
      cycle s = .next { s with
        S := false, SC := .t0, R := s.IEN && (s.FGI || s.FGO),
        BUSREC := none }) ∧
    (s.CUR = some .INP →
      cycle s = .next { s with
        AC := inpValue s.cfg.inpKeepsACHigh s.AC s.INPR, FGI := false, SC := .t0, R := s.IEN && s.FGO,
        BUSREC := none }) ∧
    (s.CUR = some .OUT →
      cycle s = .next { s with
        OUTR := s.AC.extractLsb' 0 8, FGO := false, SC := .t0, R := s.IEN && s.FGI,
        BUSREC := some ⟨.AC, .OUTR, s.AC⟩ }) ∧
    (s.CUR = some .SKI →
      cycle s = .next { s with
        PC := if s.FGI = true then s.PC + 1 else s.PC, SC := .t0, R := s.IEN && (s.FGI || s.FGO),
        BUSREC := none }) ∧
    (s.CUR = some .SKO →
      cycle s = .next { s with
        PC := if s.FGO = true then s.PC + 1 else s.PC, SC := .t0, R := s.IEN && (s.FGI || s.FGO),
        BUSREC := none }) ∧
    (s.CUR = some .ION →
      cycle s = .next { s with
        IEN := true, SC := .t0, R := s.FGI || s.FGO,
        BUSREC := none }) ∧
    (s.CUR = some .IOF →
      cycle s = .next { s with
        IEN := false, SC := .t0, R := false,
        BUSREC := none })

/-- 41_sequencer.md section 5, the table of T4, T5 and T6 (BSA's T4 by decision D5, ADD's E by decision D2; assumption log
10, 8; BUSREC and ALUREC by decision D16, log 20, 21). -/
def Obligations.MemoryReferenceExecuteStates : Prop :=
  ∀ s : State, s.R = false → s.S = true →
    (s.SC = .t4 → s.CUR ∈ [some .AND, some .ADD, some .LDA, some .ISZ] →
      cycle s = .next { s with
        DR := memRead s.M s.AR
        SC := .t5
        MLATCH := memRead s.M s.AR
        BUSREC := some ⟨.MEM, .DR, memRead s.M s.AR⟩ }) ∧
    (s.SC = .t5 → s.CUR = some .AND →
      cycle s = .next { s with
        AC := s.AC &&& s.DR
        SC := .t0
        R := s.IEN && (s.FGI || s.FGO)
        BUSREC := none
        ALUREC := some ⟨.AND, some .AC, some .DR⟩ }) ∧
    (s.SC = .t5 → s.CUR = some .ADD →
      cycle s = .next { s with
        AC := s.AC + s.DR
        E := if s.cfg.addCarryToE then decide (65536 ≤ s.AC.toNat + s.DR.toNat) else s.E
        SC := .t0
        R := s.IEN && (s.FGI || s.FGO)
        BUSREC := none
        ALUREC := some ⟨.ADD, some .AC, some .DR⟩ }) ∧
    (s.SC = .t5 → s.CUR = some .LDA →
      cycle s = .next { s with
        AC := s.DR
        SC := .t0
        R := s.IEN && (s.FGI || s.FGO)
        BUSREC := none
        ALUREC := some ⟨.LDA, some .DR, none⟩ }) ∧
    (s.SC = .t4 → s.CUR = some .STA →
      cycle s = .next { s with
        M := memWrite s.M s.AR s.AC
        SC := .t0
        R := s.IEN && (s.FGI || s.FGO)
        MLATCH := s.AC
        BUSREC := some ⟨.AC, .MEM, s.AC⟩ }) ∧
    (s.SC = .t4 → s.CUR = some .BUN →
      cycle s = .next { s with
        PC := s.AR
        SC := .t0
        R := s.IEN && (s.FGI || s.FGO)
        BUSREC := some ⟨.AR, .PC, s.AR.setWidth 16⟩ }) ∧
    (s.SC = .t4 → s.CUR = some .BSA →
      cycle s = .next { s with
        M := memWrite s.M s.AR (s.PC.setWidth 16)
        AR := s.AR + 1
        SC := .t5
        MLATCH := s.PC.setWidth 16
        BUSREC := some ⟨.PC, .MEM, s.PC.setWidth 16⟩ }) ∧
    (s.SC = .t5 → s.CUR = some .BSA →
      cycle s = .next { s with
        PC := s.AR
        SC := .t0
        R := s.IEN && (s.FGI || s.FGO)
        BUSREC := some ⟨.AR, .PC, s.AR.setWidth 16⟩ }) ∧
    (s.SC = .t5 → s.CUR = some .ISZ →
      cycle s = .next { s with DR := s.DR + 1, SC := .t6, BUSREC := none }) ∧
    (s.SC = .t6 → s.CUR = some .ISZ →
      cycle s = .next { s with
        M := memWrite s.M s.AR s.DR
        PC := if s.DR = 0 then s.PC + 1 else s.PC
        SC := .t0
        R := s.IEN && (s.FGI || s.FGO)
        MLATCH := s.DR
        BUSREC := some ⟨.DR, .MEM, s.DR⟩ })

/-- 41_sequencer.md section 1, the halt gate (decision D7, assumption log 12). -/
def Obligations.HaltedCycleChangesNothing : Prop :=
  ∀ s : State, s.R = false → s.S = false → cycle s = .next s

/-- 41_sequencer.md sections 4 and 6: the last T-state of every instruction, and of an undecodable word (that one by
decision D4, assumption log 9), sets SC to 0; a cycle of a running instruction that ends with SC = 0 has assigned R from
the flags as it leaves them, and only such a cycle raises R. -/
def Obligations.CompletionRecomputesR : Prop :=
  ∀ s t : State, cycle s = .next t →
    (s.R = false → s.S = true → s.cfg.wf = true → s.SC = lastSC s.cfg s.CUR → t.SC = .t0) ∧
    (s.R = false → s.S = true → t.SC = .t0 → t.R = (t.IEN && (t.FGI || t.FGO))) ∧
    (s.R = false → t.R = true → s.S = true ∧ t.SC = .t0)

/-- 41_sequencer.md section 7 (decisions D3, D4; assumption log 9): how many cycles an instruction takes from its
boundary. -/
def Obligations.CyclesPerInstruction : Prop :=
  ∀ s : State, s.R = false → s.S = true → s.SC = .t0 → s.hostEvents = [] →
    (∀ i, decode s.cfg.opc (memRead s.M s.PC) = .ok i →
      ticksToBoundary 7 s =
        some (match i with
          | .and _ _ => 6
          | .add _ _ => 6
          | .lda _ _ => 6
          | .sta _ _ => 5
          | .bun _ _ => 5
          | .bsa _ _ => 6
          | .isz _ _ => 7
          | _ => 4)) ∧
    (decode s.cfg.opc (memRead s.M s.PC) = .error .notFound → s.cfg.wf = true →
      ticksToBoundary 7 s = some (s.cfg.undefLastT.toNat + 1))

/-! ## Steps -/

/-- 41_sequencer.md sections 2 and 7 (that a step is a whole instruction: assumption log 1; BUSREC: decision D16, log 20):
at an instruction boundary a step is T0 and T1 (with whatever the host does between) and then `exec` of the instruction
that the fetched word decodes to; with a quiet host the word fetched is the one at PC, PC moves to the next cell and AR
holds the instruction's own address. -/
def Obligations.StepRunsDecodedInstruction : Prop :=
  ∀ (s : State) (i : Instr), s.R = false → s.S = true → s.SC = .t0 →
    (decode s.cfg.opc (fetch s).IR = .ok i → step s = exec i (fetch s)) ∧
    (s.hostEvents = [] →
      fetch s = { s with
        AR := s.PC
        IR := memRead s.M s.PC
        PC := s.PC + 1
        SC := .t2
        MLATCH := memRead s.M s.PC
        BUSREC := some ⟨.MEM, .IR, memRead s.M s.PC⟩ })

/-- 41_sequencer.md section 6 (decision D4, assumption log 9): a step on an undecodable word idles: besides the latches of
its fetch only PC advances, whatever UNDEF_LAST_T is; nothing is refused (I latched: decision D14, log 17; BUSREC:
decision D16, log 20). -/
def Obligations.StepOnUndecodableWordOnlyAdvancesPC : Prop :=
  ∀ s : State, s.R = false → s.S = true → s.SC = .t0 → s.hostEvents = [] → s.cfg.wf = true →
    decode s.cfg.opc (memRead s.M s.PC) = .error .notFound →
    step s = .next { s with
      AR := addrField (memRead s.M s.PC)
      IR := memRead s.M s.PC
      PC := s.PC + 1
      I := indirectField (memRead s.M s.PC)
      CUR := none
      R := s.IEN && (s.FGI || s.FGO)
      MLATCH := memRead s.M s.PC
      BUSREC := none }

/-- 41_sequencer.md section 1 and section 7, for every state and every host schedule (assumption log 1, 19): one step of
the model is the spec's cycles, each preceded by what the host does, up to the next boundary (or one cycle of a halted
machine). -/
def Obligations.StepIsTheCyclesToTheBoundary : Prop :=
  ∀ s : State, step s = runTicks 7 s

/-- 41_sequencer.md section 8 ("The sequencer never fails at run time"): every instruction, from every state and under
every host schedule, runs to a completion of its own. -/
def Obligations.ExecAlwaysCompletes : Prop :=
  ∀ (i : Instr) (s : State), ∃ t, exec i s = .next t ∧ t.SC = .t0 ∧ t.CUR = some (mnemonicOf i) ∧
    t.R = (t.IEN && (t.FGI || t.FGO)) ∧ (i ≠ .hlt → t.S = s.S)

/-! ## Memory-reference instructions -/

/-- 42_memory_reference.md, AND (whole instruction). The records are decision D16's (assumption log 20, 21), the latched I
is decision D14's (log 17). -/
def Obligations.AndResult : Prop :=
  ∀ (ind : Bool) (a : Addr) (s : State), s.hostEvents = [] →
    exec (.and ind a) s = .next { s with
      AR := effectiveAddress ind a s.M
      DR := memRead s.M (effectiveAddress ind a s.M)
      AC := s.AC &&& memRead s.M (effectiveAddress ind a s.M)
      I := ind
      CUR := some .AND
      SC := .t0
      R := s.IEN && (s.FGI || s.FGO)
      MLATCH := memRead s.M (effectiveAddress ind a s.M)
      BUSREC := none
      ALUREC := some ⟨.AND, some .AC, some .DR⟩ }

/-- 42_memory_reference.md, ADD (whole instruction; E by decision D2, assumption log 8). The records are decision D16's
(assumption log 20, 21), the latched I is decision D14's (log 17). -/
def Obligations.AddResult : Prop :=
  ∀ (ind : Bool) (a : Addr) (s : State), s.hostEvents = [] →
    exec (.add ind a) s = .next { s with
      AR := effectiveAddress ind a s.M
      DR := memRead s.M (effectiveAddress ind a s.M)
      AC := s.AC + memRead s.M (effectiveAddress ind a s.M)
      E := if s.cfg.addCarryToE
        then decide (65536 ≤ s.AC.toNat + (memRead s.M (effectiveAddress ind a s.M)).toNat) else s.E
      I := ind
      CUR := some .ADD
      SC := .t0
      R := s.IEN && (s.FGI || s.FGO)
      MLATCH := memRead s.M (effectiveAddress ind a s.M)
      BUSREC := none
      ALUREC := some ⟨.ADD, some .AC, some .DR⟩ }

/-- 42_memory_reference.md, LDA (whole instruction). The records are decision D16's (assumption log 20, 21), the latched I
is decision D14's (log 17). -/
def Obligations.LdaResult : Prop :=
  ∀ (ind : Bool) (a : Addr) (s : State), s.hostEvents = [] →
    exec (.lda ind a) s = .next { s with
      AR := effectiveAddress ind a s.M
      DR := memRead s.M (effectiveAddress ind a s.M)
      AC := memRead s.M (effectiveAddress ind a s.M)
      I := ind
      CUR := some .LDA
      SC := .t0
      R := s.IEN && (s.FGI || s.FGO)
      MLATCH := memRead s.M (effectiveAddress ind a s.M)
      BUSREC := none
      ALUREC := some ⟨.LDA, some .DR, none⟩ }

/-- 42_memory_reference.md, STA (whole instruction). The records are decision D16's (assumption log 20, 21), the latched I
is decision D14's (log 17). -/
def Obligations.StaResult : Prop :=
  ∀ (ind : Bool) (a : Addr) (s : State), s.hostEvents = [] →
    exec (.sta ind a) s = .next { s with
      AR := effectiveAddress ind a s.M
      M := memWrite s.M (effectiveAddress ind a s.M) s.AC
      I := ind
      CUR := some .STA
      SC := .t0
      R := s.IEN && (s.FGI || s.FGO)
      MLATCH := s.AC
      BUSREC := some ⟨.AC, .MEM, s.AC⟩ }

/-- 42_memory_reference.md, BUN (whole instruction). The records are decision D16's (assumption log 20, 21), the latched I
is decision D14's (log 17). -/
def Obligations.BunResult : Prop :=
  ∀ (ind : Bool) (a : Addr) (s : State), s.hostEvents = [] →
    exec (.bun ind a) s = .next { s with
      AR := effectiveAddress ind a s.M
      PC := effectiveAddress ind a s.M
      I := ind
      CUR := some .BUN
      SC := .t0
      R := s.IEN && (s.FGI || s.FGO)
      MLATCH := if ind then memRead s.M a else s.MLATCH
      BUSREC := some ⟨.AR, .PC, (effectiveAddress ind a s.M).setWidth 16⟩ }

/-- 42_memory_reference.md, BSA (whole instruction; AR by decision D5, assumption log 10). PC holds the return address
when the execute states begin. The records are decision D16's (assumption log 20, 21), the latched I is decision D14's
(log 17). -/
def Obligations.BsaResult : Prop :=
  ∀ (ind : Bool) (a : Addr) (s : State), s.hostEvents = [] →
    exec (.bsa ind a) s = .next { s with
      M := memWrite s.M (effectiveAddress ind a s.M) (s.PC.setWidth 16)
      AR := effectiveAddress ind a s.M + 1
      PC := effectiveAddress ind a s.M + 1
      I := ind
      CUR := some .BSA
      SC := .t0
      R := s.IEN && (s.FGI || s.FGO)
      MLATCH := s.PC.setWidth 16
      BUSREC := some ⟨.AR, .PC, (effectiveAddress ind a s.M + 1).setWidth 16⟩ }

/-- 42_memory_reference.md, ISZ (whole instruction): the skip looks at the incremented value (90_conflicts.md C1). The
records are decision D16's (assumption log 20, 21), the latched I is decision D14's (log 17). -/
def Obligations.IszResult : Prop :=
  ∀ (ind : Bool) (a : Addr) (s : State), s.hostEvents = [] →
    exec (.isz ind a) s = .next { s with
      AR := effectiveAddress ind a s.M
      DR := memRead s.M (effectiveAddress ind a s.M) + 1
      M := memWrite s.M (effectiveAddress ind a s.M) (memRead s.M (effectiveAddress ind a s.M) + 1)
      PC := if memRead s.M (effectiveAddress ind a s.M) = 0xFFFF then s.PC + 1 else s.PC
      I := ind
      CUR := some .ISZ
      SC := .t0
      R := s.IEN && (s.FGI || s.FGO)
      MLATCH := memRead s.M (effectiveAddress ind a s.M) + 1
      BUSREC := some ⟨.DR, .MEM, memRead s.M (effectiveAddress ind a s.M) + 1⟩ }

/-! ## Register-reference instructions

AR and I end as the fields of the instruction's own word (0x800 and 0 for CLA with the default opcode table). -/

/-- 43_register_reference.md, CLA, CLE, CMA, CME (whole instruction; that CLA and CMA leave E alone is decision D18,
assumption log 16). The records are decision D16's (assumption log 20, 21), the latched I is decision D14's (log 17). -/
def Obligations.ClearAndComplementResults : Prop :=
  ∀ s : State, s.hostEvents = [] →
    exec .cla s = .next { s with
      AC := 0,
      AR := addrField s.cfg.opc.cla, I := indirectField s.cfg.opc.cla, CUR := some .CLA,
      SC := .t0, R := s.IEN && (s.FGI || s.FGO), BUSREC := none } ∧
    exec .cle s = .next { s with
      E := false,
      AR := addrField s.cfg.opc.cle, I := indirectField s.cfg.opc.cle, CUR := some .CLE,
      SC := .t0, R := s.IEN && (s.FGI || s.FGO),
      BUSREC := none } ∧
    exec .cma s = .next { s with
      AC := s.AC ^^^ 0xFFFF,
      AR := addrField s.cfg.opc.cma, I := indirectField s.cfg.opc.cma, CUR := some .CMA,
      SC := .t0, R := s.IEN && (s.FGI || s.FGO),
      BUSREC := none, ALUREC := some ⟨.CMA, some .AC, none⟩ } ∧
    exec .cme s = .next { s with
      E := !s.E,
      AR := addrField s.cfg.opc.cme, I := indirectField s.cfg.opc.cme, CUR := some .CME,
      SC := .t0, R := s.IEN && (s.FGI || s.FGO),
      BUSREC := none, ALUREC := some ⟨.CME, none, none⟩ }

/-- 43_register_reference.md, CIR and CIL (whole instruction): both results from the old AC and the old E, bit by bit. The
records are decision D16's (assumption log 20, 21), the latched I is decision D14's (log 17). -/
def Obligations.CirculateResults : Prop :=
  ∀ s : State, s.hostEvents = [] →
    (∃ ac : Word,
      exec .cir s = .next { s with
        AC := ac, E := s.AC.getLsbD 0,
        AR := addrField s.cfg.opc.cir, I := indirectField s.cfg.opc.cir, CUR := some .CIR,
        SC := .t0,
        R := s.IEN && (s.FGI || s.FGO), BUSREC := none, ALUREC := some ⟨.CIR, some .AC, none⟩ } ∧
      ac.getLsbD 15 = s.E ∧ ∀ k, k < 15 → ac.getLsbD k = s.AC.getLsbD (k + 1)) ∧
    (∃ ac : Word,
      exec .cil s = .next { s with
        AC := ac, E := s.AC.getLsbD 15,
        AR := addrField s.cfg.opc.cil, I := indirectField s.cfg.opc.cil, CUR := some .CIL,
        SC := .t0,
        R := s.IEN && (s.FGI || s.FGO), BUSREC := none, ALUREC := some ⟨.CIL, some .AC, none⟩ } ∧
      ac.getLsbD 0 = s.E ∧ ∀ k, k < 15 → ac.getLsbD (k + 1) = s.AC.getLsbD k)

/-- 43_register_reference.md, INC (whole instruction): AC modulo 65536, E unchanged also on the wrap (decision D18,
assumption log 16). The records are decision D16's (assumption log 20, 21), the latched I is decision D14's (log 17). -/
def Obligations.IncResult : Prop :=
  ∀ s : State, s.hostEvents = [] →
    exec .inc s = .next { s with
      AC := BitVec.ofNat 16 ((s.AC.toNat + 1) % 65536),
      AR := addrField s.cfg.opc.inc, I := indirectField s.cfg.opc.inc, CUR := some .INC,
      SC := .t0,
      R := s.IEN && (s.FGI || s.FGO), BUSREC := none }

/-- 43_register_reference.md, SPA, SNA, SZA, SZE (whole instruction; polarity by decision D9, assumption log 15). The
records are decision D16's (assumption log 20, 21), the latched I is decision D14's (log 17). -/
def Obligations.AccumulatorSkipResults : Prop :=
  ∀ s : State, s.hostEvents = [] →
    exec .spa s = .next { s with
      PC := if s.AC.toNat < 32768 then s.PC + 1 else s.PC,
      AR := addrField s.cfg.opc.spa, I := indirectField s.cfg.opc.spa, CUR := some .SPA,
      SC := .t0,
      R := s.IEN && (s.FGI || s.FGO), BUSREC := none } ∧
    exec .sna s = .next { s with
      PC := if 32768 ≤ s.AC.toNat then s.PC + 1 else s.PC,
      AR := addrField s.cfg.opc.sna, I := indirectField s.cfg.opc.sna, CUR := some .SNA,
      SC := .t0,
      R := s.IEN && (s.FGI || s.FGO), BUSREC := none } ∧
    exec .sza s = .next { s with
      PC := if s.AC = 0 then s.PC + 1 else s.PC,
      AR := addrField s.cfg.opc.sza, I := indirectField s.cfg.opc.sza, CUR := some .SZA,
      SC := .t0,
      R := s.IEN && (s.FGI || s.FGO), BUSREC := none } ∧
    exec .sze s = .next { s with
      PC := if s.E = false then s.PC + 1 else s.PC,
      AR := addrField s.cfg.opc.sze, I := indirectField s.cfg.opc.sze, CUR := some .SZE,
      SC := .t0,
      R := s.IEN && (s.FGI || s.FGO), BUSREC := none }

/-- 43_register_reference.md, HLT (whole instruction). The records are decision D16's (assumption log 20, 21), the latched
I is decision D14's (log 17). -/
def Obligations.HltResult : Prop :=
  ∀ s : State, s.hostEvents = [] →
    exec .hlt s = .next { s with
      S := false,
      AR := addrField s.cfg.opc.hlt, I := indirectField s.cfg.opc.hlt, CUR := some .HLT,
      SC := .t0, R := s.IEN && (s.FGI || s.FGO),
      BUSREC := none }

/-! ## IO-reference instructions -/

/-- 44_io_reference.md, INP and OUT (whole instruction; AC[15:8] after INP by decision D10, assumption log 13). R is
computed on the cleared flag. The records are decision D16's (assumption log 20, 21), the latched I is decision D14's (log
17). -/
def Obligations.InpAndOutResults : Prop :=
  ∀ s : State, s.hostEvents = [] →
    (s.cfg.inpKeepsACHigh = false →
      exec .inp s = .next { s with
        AC := s.INPR.setWidth 16, FGI := false,
        AR := addrField s.cfg.opc.inp, I := indirectField s.cfg.opc.inp, CUR := some .INP,
        SC := .t0,
        R := s.IEN && s.FGO, BUSREC := none }) ∧
    (s.cfg.inpKeepsACHigh = true →
      ∃ ac : Word,
        exec .inp s = .next { s with
          AC := ac, FGI := false,
          AR := addrField s.cfg.opc.inp, I := indirectField s.cfg.opc.inp, CUR := some .INP,
          SC := .t0, R := s.IEN && s.FGO,
          BUSREC := none } ∧
        (∀ k, k < 8 → ac.getLsbD k = s.INPR.getLsbD k) ∧ (∀ k, 8 ≤ k → ac.getLsbD k = s.AC.getLsbD k)) ∧
    exec .out s = .next { s with
      OUTR := s.AC.extractLsb' 0 8, FGO := false,
      AR := addrField s.cfg.opc.out, I := indirectField s.cfg.opc.out, CUR := some .OUT,
      SC := .t0,
      R := s.IEN && s.FGI, BUSREC := some ⟨.AC, .OUTR, s.AC⟩ }

/-- 44_io_reference.md, SKI and SKO (whole instruction; polarity by decision D9, assumption log 15). The records are
decision D16's (assumption log 20, 21), the latched I is decision D14's (log 17). -/
def Obligations.DeviceSkipResults : Prop :=
  ∀ s : State, s.hostEvents = [] →
    exec .ski s = .next { s with
      PC := if s.FGI = true then s.PC + 1 else s.PC,
      AR := addrField s.cfg.opc.ski, I := indirectField s.cfg.opc.ski, CUR := some .SKI,
      SC := .t0,
      R := s.IEN && (s.FGI || s.FGO), BUSREC := none } ∧
    exec .sko s = .next { s with
      PC := if s.FGO = true then s.PC + 1 else s.PC,
      AR := addrField s.cfg.opc.sko, I := indirectField s.cfg.opc.sko, CUR := some .SKO,
      SC := .t0,
      R := s.IEN && (s.FGI || s.FGO), BUSREC := none }

/-- 44_io_reference.md, ION and IOF (whole instruction): the new IEN decides R at once. The records are decision D16's
(assumption log 20, 21), the latched I is decision D14's (log 17). -/
def Obligations.InterruptEnableResults : Prop :=
  ∀ s : State, s.hostEvents = [] →
    exec .ion s = .next { s with
      IEN := true,
      AR := addrField s.cfg.opc.ion, I := indirectField s.cfg.opc.ion, CUR := some .ION,
      SC := .t0, R := s.FGI || s.FGO, BUSREC := none } ∧
    exec .iof s = .next { s with
      IEN := false,
      AR := addrField s.cfg.opc.iof, I := indirectField s.cfg.opc.iof, CUR := some .IOF,
      SC := .t0, R := false, BUSREC := none }

/-! ## Frames -/

/-- 42_memory_reference.md (E kept: decision D18, assumption log 16; ALUREC: log 21): STA, BSA and ISZ store one word, at
the effective address; every other cell reads as before. STA and BSA change neither AC nor DR; BSA and ISZ may change PC;
BSA leaves AR one past the effective address. -/
def Obligations.FrameOfStoringInstructions : Prop :=
  ∀ (i : Instr) (ind : Bool) (a : Addr) (s t : State),
    i = .sta ind a ∨ i = .bsa ind a ∨ i = .isz ind a → s.hostEvents = [] → exec i s = .next t →
    (∀ b : Addr, b ≠ effectiveAddress ind a s.M → memRead t.M b = memRead s.M b) ∧
    t.AC = s.AC ∧ t.IR = s.IR ∧ t.TR = s.TR ∧ t.OUTR = s.OUTR ∧ t.INPR = s.INPR ∧ t.E = s.E ∧ t.S = s.S ∧
    t.IEN = s.IEN ∧ t.FGI = s.FGI ∧ t.FGO = s.FGO ∧ t.ALUREC = s.ALUREC ∧ t.cfg = s.cfg ∧ t.hostTook = s.hostTook ∧
    (i = .sta ind a → t.PC = s.PC) ∧ (i = .sta ind a ∨ i = .bsa ind a → t.DR = s.DR) ∧
    (i = .sta ind a ∨ i = .isz ind a → t.AR = effectiveAddress ind a s.M)

/-- 42_memory_reference.md (E kept by all but ADD: decision D18, assumption log 16; ALUREC: log 21): AND, ADD, LDA and BUN
store nothing; every cell reads as before. AND, ADD and LDA write DR and AC and not PC, BUN writes PC and not DR and AC,
only ADD writes E. -/
def Obligations.FrameOfLoadingInstructionsAndBun : Prop :=
  ∀ (i : Instr) (ind : Bool) (a : Addr) (s t : State),
    i = .and ind a ∨ i = .add ind a ∨ i = .lda ind a ∨ i = .bun ind a → s.hostEvents = [] → exec i s = .next t →
    (∀ b : Addr, memRead t.M b = memRead s.M b) ∧
    t.IR = s.IR ∧ t.TR = s.TR ∧ t.OUTR = s.OUTR ∧ t.INPR = s.INPR ∧ t.S = s.S ∧ t.IEN = s.IEN ∧ t.FGI = s.FGI ∧
    t.FGO = s.FGO ∧ t.cfg = s.cfg ∧ t.hostTook = s.hostTook ∧ t.AR = effectiveAddress ind a s.M ∧
    (i ≠ .add ind a → t.E = s.E) ∧ (i ≠ .bun ind a → t.PC = s.PC) ∧
    (i = .bun ind a → t.AC = s.AC ∧ t.DR = s.DR ∧ t.ALUREC = s.ALUREC)

/-- 43_register_reference.md, 44_io_reference.md: the 18 format-X instructions store nothing and write, beside the latches
of T2 and the completion's R, only what their rules name (that INC keeps E: decision D18, assumption log 16; which write
ALUREC: log 21). -/
def Obligations.FrameOfFormatXInstructions : Prop :=
  ∀ (i : Instr) (s t : State), i.isMemRef = false → s.hostEvents = [] → exec i s = .next t →
    (∀ b : Addr, memRead t.M b = memRead s.M b) ∧
    t.DR = s.DR ∧ t.IR = s.IR ∧ t.TR = s.TR ∧ t.INPR = s.INPR ∧ t.MLATCH = s.MLATCH ∧ t.cfg = s.cfg ∧
    t.hostTook = s.hostTook ∧
    (i ∉ [.cla, .cma, .cir, .cil, .inc, .inp] → t.AC = s.AC) ∧
    (i ∉ [.cle, .cme, .cir, .cil] → t.E = s.E) ∧
    (i ∉ [.spa, .sna, .sza, .sze, .ski, .sko] → t.PC = s.PC) ∧
    (i ≠ .hlt → t.S = s.S) ∧ (i ≠ .out → t.OUTR = s.OUTR ∧ t.FGO = s.FGO) ∧ (i ≠ .inp → t.FGI = s.FGI) ∧
    (i ∉ [.ion, .iof] → t.IEN = s.IEN) ∧ (i ∉ [.cma, .cme, .cir, .cil] → t.ALUREC = s.ALUREC)

/-! ## The interrupt -/

/-- 60_exceptions.md section 3, RT0 and RT1 (decisions D6, D17; assumption log 11; BUSREC: decision D16, log 20), whatever
S is. -/
def Obligations.InterruptSaveCycles : Prop :=
  ∀ s : State, s.R = true →
    (s.SC = .t0 →
      cycle s = .next { s with
        TR := s.PC.setWidth 16
        AR := 0
        AC := if s.cfg.intClearsAC then 0 else s.AC
        SC := .t1
        BUSREC := some ⟨.PC, .TR, s.PC.setWidth 16⟩ }) ∧
    (s.SC = .t1 →
      cycle s = .next { s with
        M := memWrite s.M s.AR s.TR
        PC := 0
        SC := .t2
        MLATCH := s.TR
        BUSREC := some ⟨.TR, .MEM, s.TR⟩ })

/-- 60_exceptions.md section 3, RT2, whatever S is (that BUSREC is none: decision D16, assumption log 20). -/
def Obligations.InterruptLastCycle : Prop :=
  ∀ s : State, s.R = true → s.SC = .t2 →
    cycle s = .next { s with PC := s.PC + 1, IEN := false, R := false, SC := .t0, BUSREC := none }

/-- 60_exceptions.md section 3, trap entry as a whole: one step of the model (decisions D6, D17; assumption log 1, 11;
BUSREC: decision D16, log 20). -/
def Obligations.InterruptEntryAsAWhole : Prop :=
  ∀ s : State, s.R = true → s.SC = .t0 → s.hostEvents = [] →
    step s = .next { s with
      TR := s.PC.setWidth 16
      M := memWrite s.M 0 (s.PC.setWidth 16)
      PC := 1
      AR := 0
      AC := if s.cfg.intClearsAC then 0 else s.AC
      IEN := false
      R := false
      MLATCH := s.PC.setWidth 16
      BUSREC := none }

/-- 60_exceptions.md section 4: after an interrupt entry, a program's BUN indirect through cell 0 goes back to the address
that was to run next, with the accumulator and E as they were (INT_CLEARS_AC false, decision D6, assumption log 11). -/
def Obligations.BranchThroughCellZeroReturnsFromInterrupt : Prop :=
  ∀ s : State, s.R = true → s.SC = .t0 → s.hostEvents = [] → s.cfg.intClearsAC = false → Memory.wf s.M = true →
    ∃ t u, step s = .next t ∧ exec (.bun true 0) t = .next u ∧ u.PC = s.PC ∧ u.AC = s.AC ∧ u.E = s.E ∧
      u.IEN = false ∧ u.R = false

/-- 60_exceptions.md section 4, interrupt and halt: an HLT that completes with a request pending is followed by the
interrupt cycle, which leaves the machine halted at PC = 1; the next step changes nothing. -/
def Obligations.HaltWithRequestTakesInterruptAndStaysHalted : Prop :=
  ∀ s : State, s.hostEvents = [] → s.IEN = true → s.FGI = true ∨ s.FGO = true →
    ∃ t u, exec .hlt s = .next t ∧ t.R = true ∧ t.S = false ∧ step t = .next u ∧ u.S = false ∧ u.R = false ∧
      u.PC = 1 ∧ u.M = memWrite s.M 0 (s.PC.setWidth 16) ∧ step u = .next u

/-! ## The host -/

/-- 60_exceptions.md section 6 (D11, U12; assumption log 14; masks: log 23; hostTook: log 19): the effect of each host
event, as the whole next state, and what is read after a write. -/
def Obligations.HostEventEffects : Prop :=
  ∀ s : State,
    (∀ b : Int, applyHost (.input b) s = { s with INPR := BitVec.ofInt 8 b, FGI := true }) ∧
    (s.FGO = false → applyHost .outputDrain s = { s with FGO := true, hostTook := s.hostTook ++ [s.OUTR] }) ∧
    (s.FGO = true → applyHost .outputDrain s = s) ∧
    (∀ v : Nat,
      applyHost (.setReg .AR v) s = { s with AR := BitVec.ofNat 12 v } ∧
      applyHost (.setReg .PC v) s = { s with PC := BitVec.ofNat 12 v } ∧
      applyHost (.setReg .DR v) s = { s with DR := BitVec.ofNat 16 v } ∧
      applyHost (.setReg .AC v) s = { s with AC := BitVec.ofNat 16 v } ∧
      applyHost (.setReg .IR v) s = { s with IR := BitVec.ofNat 16 v } ∧
      applyHost (.setReg .TR v) s = { s with TR := BitVec.ofNat 16 v } ∧
      applyHost (.setReg .OUTR v) s = { s with OUTR := BitVec.ofNat 8 v } ∧
      applyHost (.setReg .INPR v) s = { s with INPR := BitVec.ofNat 8 v }) ∧
    (∀ (X : Reg) (v : Nat), X ≠ .OUTR → X ≠ .INPR → X ≠ .AR → X ≠ .PC →
      (regRead X (applyHost (.setReg X v) s)).toNat = v % 65536) ∧
    (∀ v : Nat, (applyHost (.setReg .PC v) s).PC.toNat = v % 4096 ∧ (applyHost (.setReg .AR v) s).AR.toNat = v % 4096 ∧
      (applyHost (.setReg .OUTR v) s).OUTR.toNat = v % 256 ∧ (applyHost (.setReg .INPR v) s).INPR.toNat = v % 256) ∧
    (∀ (a : Addr) (v : Nat),
      applyHost (.setMem a v) s = { s with M := memWrite s.M a (BitVec.ofNat 16 v) } ∧
      (Memory.wf s.M = true → memRead (applyHost (.setMem a v) s).M a = BitVec.ofNat 16 v) ∧
      ∀ b, b ≠ a → memRead (applyHost (.setMem a v) s).M b = memRead s.M b) ∧
    applyHost .snapshot s = s

/-- 60_exceptions.md R201: no host event writes E, I, S, R, IEN, SC or CUR; FGO is written only by OUT and the output
drain, FGI only by INP and the input arrival. -/
def Obligations.HostMovesAndDeviceFlagWriters : Prop :=
  (∀ (e : HostEvent) (s : State),
    (applyHost e s).E = s.E ∧ (applyHost e s).I = s.I ∧ (applyHost e s).S = s.S ∧ (applyHost e s).R = s.R ∧
    (applyHost e s).IEN = s.IEN ∧ (applyHost e s).SC = s.SC ∧ (applyHost e s).CUR = s.CUR ∧
    (e ≠ .outputDrain → (applyHost e s).FGO = s.FGO) ∧
    ((∀ b, e ≠ .input b) → (applyHost e s).FGI = s.FGI)) ∧
  (∀ s t : State, cycle s = .next t →
    (t.FGO ≠ s.FGO → s.CUR = some .OUT ∧ s.SC = .t3 ∧ t.FGO = false) ∧
    (t.FGI ≠ s.FGI → s.CUR = some .INP ∧ s.SC = .t3 ∧ t.FGI = false))

/-- 70_reset_and_hazards.md section 3, host events between T-states (R215), for direct and indirect forms: an edit of the
operand cell after T4 is not seen by AND, ADD and LDA, one before T4 is; an edit of the ISZ cell between T4 and T6 is
overwritten; an edit of the pointer cell before T3 redirects an indirect LDA. Members 0, 1, 2, 3 of the schedule precede
T3, T4, T5, T6 (assumption log 19, 22). -/
def Obligations.HostEditsOfTheOperandCell : Prop :=
  ∀ (s : State) (ind : Bool) (a : Addr) (v : Nat), Memory.wf s.M = true →
    (s.hostEvents = [[], [], [.setMem (effectiveAddress ind a s.M) v]] →
      (∃ t, exec (.and ind a) s = .next t ∧ t.AC = s.AC &&& memRead s.M (effectiveAddress ind a s.M) ∧
        memRead t.M (effectiveAddress ind a s.M) = BitVec.ofNat 16 v) ∧
      (∃ t, exec (.add ind a) s = .next t ∧ t.AC = s.AC + memRead s.M (effectiveAddress ind a s.M) ∧
        memRead t.M (effectiveAddress ind a s.M) = BitVec.ofNat 16 v) ∧
      (∃ t, exec (.lda ind a) s = .next t ∧ t.AC = memRead s.M (effectiveAddress ind a s.M) ∧
        memRead t.M (effectiveAddress ind a s.M) = BitVec.ofNat 16 v)) ∧
    (s.hostEvents = [[], [.setMem (effectiveAddress ind a s.M) v]] →
      (∃ t, exec (.and ind a) s = .next t ∧ t.AC = s.AC &&& BitVec.ofNat 16 v) ∧
      (∃ t, exec (.add ind a) s = .next t ∧ t.AC = s.AC + BitVec.ofNat 16 v) ∧
      (∃ t, exec (.lda ind a) s = .next t ∧ t.AC = BitVec.ofNat 16 v)) ∧
    (s.hostEvents = [[], [], [.setMem (effectiveAddress ind a s.M) v]] ∨
        s.hostEvents = [[], [], [], [.setMem (effectiveAddress ind a s.M) v]] →
      ∃ t, exec (.isz ind a) s = .next t ∧
        memRead t.M (effectiveAddress ind a s.M) = memRead s.M (effectiveAddress ind a s.M) + 1) ∧
    (s.hostEvents = [[.setMem a v]] →
      ∃ t, exec (.lda true a) s = .next t ∧ t.AR = addrField (BitVec.ofNat 16 v))

/-- 60_exceptions.md section 6, 70_reset_and_hazards.md section 3 and 95_test_vectors.md H7, I4: a write of AR between T3
and T4 redirects the operand access; an input byte that arrives before T3 of any instruction but INP, or between T4 and
T5, is seen by that instruction's completion; a write of IR between T1 and T2 changes what is decoded; an edit of the cell
being fetched is seen before T1 and not after it. In `fetch` the members 0, 1, 2 of the schedule precede T0, T1, T2, in
`exec` they precede T3, T4, T5 (assumption log 19, 22). -/
def Obligations.HostEventsInsideAnInstruction : Prop :=
  ∀ (s : State) (ind : Bool) (a : Addr),
    (∀ v : Nat, s.hostEvents = [[], [.setReg .AR v]] →
      (∃ t, exec (.and ind a) s = .next t ∧ t.AC = s.AC &&& memRead s.M (BitVec.ofNat 12 v)) ∧
      (∃ t, exec (.add ind a) s = .next t ∧ t.AC = s.AC + memRead s.M (BitVec.ofNat 12 v)) ∧
      (∃ t, exec (.lda ind a) s = .next t ∧ t.AC = memRead s.M (BitVec.ofNat 12 v)) ∧
      (∃ t, exec (.sta ind a) s = .next t ∧ t.M = memWrite s.M (BitVec.ofNat 12 v) s.AC) ∧
      (∃ t, exec (.bun ind a) s = .next t ∧ t.PC = BitVec.ofNat 12 v)) ∧
    (∀ (b : Int) (i : Instr), i ≠ .inp → s.hostEvents = [[.input b]] →
      ∃ t, exec i s = .next t ∧ t.INPR = BitVec.ofInt 8 b ∧ t.FGI = true ∧ t.R = t.IEN) ∧
    (∀ b : Int, s.hostEvents = [[], [], [.input b]] →
      ∃ t, exec (.lda ind a) s = .next t ∧ t.INPR = BitVec.ofInt 8 b ∧ t.FGI = true ∧ t.R = s.IEN) ∧
    (s.R = false → s.S = true → s.SC = .t0 →
      (∀ (v : Nat) (i : Instr), s.hostEvents = [[], [], [.setReg .IR v]] → decode s.cfg.opc (BitVec.ofNat 16 v) = .ok i →
        (fetch s).IR = BitVec.ofNat 16 v ∧ (fetch s).PC = s.PC + 1 ∧ step s = exec i (fetch s)) ∧
      (∀ v : Nat, Memory.wf s.M = true →
        (s.hostEvents = [[.setMem s.PC v]] ∨ s.hostEvents = [[], [.setMem s.PC v]] →
          (fetch s).IR = BitVec.ofNat 16 v) ∧
        (s.hostEvents = [[], [], [.setMem s.PC v]] →
          (fetch s).IR = memRead s.M s.PC ∧ memRead (fetch s).M s.PC = BitVec.ofNat 16 v)))

/-! ## Who writes what, over all cycles -/

/-- 10_state.md section 2: TR is written only by RT0, INPR by no cycle, IR only by T1, OUTR only by OUT. -/
def Obligations.WritersOfRegisters : Prop :=
  ∀ s t : State, cycle s = .next t →
    (t.TR ≠ s.TR → s.R = true ∧ s.SC = .t0) ∧
    t.INPR = s.INPR ∧
    (t.IR ≠ s.IR → s.R = false ∧ s.S = true ∧ s.SC = .t1) ∧
    (t.OUTR ≠ s.OUTR → s.R = false ∧ s.CUR = some .OUT ∧ s.SC = .t3)

/-- 10_state.md section 3: I and CUR are written only by T2, S only by HLT (which clears it), IEN only by ION, IOF and
RT2, E only by CLE, CME, CIR, CIL and ADD (decisions D2, D18; assumption log 8, 16). -/
def Obligations.WritersOfFlags : Prop :=
  ∀ s t : State, cycle s = .next t →
    (t.I ≠ s.I ∨ t.CUR ≠ s.CUR → s.R = false ∧ s.S = true ∧ s.SC = .t2) ∧
    (t.S ≠ s.S → s.R = false ∧ s.CUR = some .HLT ∧ s.SC = .t3 ∧ t.S = false) ∧
    (t.IEN ≠ s.IEN → s.R = true ∧ s.SC = .t2 ∧ t.IEN = false ∨
      s.R = false ∧ s.SC = .t3 ∧ (s.CUR = some .ION ∧ t.IEN = true ∨ s.CUR = some .IOF ∧ t.IEN = false)) ∧
    (t.E ≠ s.E → s.R = false ∧
      (s.SC = .t3 ∧ s.CUR ∈ [some .CLE, some .CME, some .CIR, some .CIL] ∨ s.SC = .t5 ∧ s.CUR = some .ADD))

/-- 20_memory.md section 2: a cycle writes memory only in T4 of STA and BSA, T6 of ISZ and RT1, and only the one cell that
AR names. -/
def Obligations.CyclesWriteMemoryOnlyAtAR : Prop :=
  ∀ s t : State, cycle s = .next t →
    (∀ b : Addr, b ≠ s.AR → memRead t.M b = memRead s.M b) ∧
    (t.M ≠ s.M →
      s.R = true ∧ s.SC = .t1 ∨
      s.R = false ∧ s.S = true ∧
        (s.SC = .t4 ∧ s.CUR ∈ [some .STA, some .BSA] ∨ s.SC = .t6 ∧ s.CUR = some .ISZ))

/-- 20_memory.md section 5 (R52): a store is seen by the next fetch; a STA to the cell that PC names is fetched as the
word just stored, by the very next step. -/
def Obligations.StoreIsFetchedAsTheNextInstruction : Prop :=
  ∀ (s : State) (i : Instr), s.hostEvents = [] → s.S = true → s.IEN = false → Memory.wf s.M = true →
    decode s.cfg.opc s.AC = .ok i →
    ∃ t, exec (.sta false s.PC) s = .next t ∧ (fetch t).IR = s.AC ∧ step t = exec i (fetch t)

/-! ## Invariants -/

/-- 10_state.md sections 5 and 6: a constructed machine meets the invariants, at the reset state (the default RESET,
decision D8, assumption log 3) and with every RESET that starts at T0, whatever else it holds. -/
def Obligations.ConstructedMachineMeetsInv : Prop :=
  Invariants State.reset ∧
  ∀ (c : Config) (image : Memory), c.wf = true → Memory.wf image = true → c.reset.SC = .t0 →
    Invariants (construct c image)

/-- 10_state.md section 5, 41_sequencer.md section 8: a cycle of a state that meets the invariants never fails and keeps
them. -/
def Obligations.CycleNeverFailsAndKeepsInv : Prop :=
  ∀ s : State, Invariants s → ∃ t, cycle s = .next t ∧ Invariants t

/-- 93_implementation_defined.md U3: every host event preserves the invariants. -/
def Obligations.HostEventsKeepInv : Prop :=
  ∀ (e : HostEvent) (s : State), Invariants s → Invariants (applyHost e s)

/-- 10_state.md section 5: every state that cycles and host events reach, from a machine constructed with any parameters,
meets the invariants. -/
def Obligations.ReachableStatesMeetInv : Prop :=
  ∀ s : State, Reachable s → Invariants s

/-- 10_state.md section 5: every step of the model, under every host schedule, keeps the invariants. -/
def Obligations.StepKeepsInv : Prop :=
  ∀ s t : State, Invariants s → step s = .next t → Invariants t

/-- 41_sequencer.md section 8: from a state that meets the invariants every step answers a next state, at an instruction
boundary, which meets them again. -/
def Obligations.StepNeverFailsAndEndsAtBoundary : Prop :=
  ∀ s : State, Invariants s → ∃ t, step s = .next t ∧ t.SC = .t0 ∧ Invariants t

/-- 70_reset_and_hazards.md section 5: once S = 0 and R = 0 no number of steps changes the control state, and without host
events nothing at all changes. -/
def Obligations.EndedMachineNeverStepsAgain : Prop :=
  ∀ (s : State) (k : Nat), s.S = false → s.R = false →
    ∃ t, Host.Core.run Sys2Proof.core k s = .next t ∧ t.S = false ∧ t.R = false ∧ t.SC = s.SC ∧ t.CUR = s.CUR ∧
      (s.hostEvents = [] → t = s)

/-- 70_reset_and_hazards.md section 1 (the default RESET, decision D8, assumption log 3): the first instruction executed
is the word at address 0. -/
def Obligations.FirstInstructionIsAtAddressZero : Prop :=
  ∀ (c : Config) (image : Memory) (i : Instr), c.reset = defaultReset → decode c.opc (memRead image 0) = .ok i →
    ∃ s, step (construct c image) = exec i s ∧ s.M = image ∧ s.cfg = c ∧ s.PC = 1 ∧ s.IR = memRead image 0 ∧ s.AC = 0 ∧
      s.E = false ∧ s.IEN = false ∧ s.S = true
end

