-- ==== Sys2Proof/Laws/Encoding.lean ====
section
/-! SUPPORT. The fields of a format-M word (30_encoding.md R61, R62). -/

namespace Sys2Proof

@[simp] theorem opField_formatM (ind : Bool) (op : BitVec 3) (addr : Addr) :
    opField (formatM ind op addr) = op := by
  ext k hk
  have : k = 0 ∨ k = 1 ∨ k = 2 := by omega
  rcases this with rfl | rfl | rfl <;> simp [formatM, opField]

@[simp] theorem addrField_formatM (ind : Bool) (op : BitVec 3) (addr : Addr) :
    addrField (formatM ind op addr) = addr := by
  ext k hk
  simp [formatM, addrField]
  interval_cases k <;> simp

@[simp] theorem indirectField_formatM (ind : Bool) (op : BitVec 3) (addr : Addr) :
    indirectField (formatM ind op addr) = ind := by
  simp [formatM, indirectField]

/-- A word is determined by its three format-M fields. -/
theorem formatM_of_fields (w : Word) : formatM (indirectField w) (opField w) (addrField w) = w := by
  ext k hk
  simp [formatM, opField, addrField, indirectField]
  interval_cases k <;> simp

/-- The low 12 bits of a word, whichever way they are taken. -/
@[simp] theorem setWidth_twelve (w : Word) : w.setWidth 12 = addrField w := by
  ext k hk
  simp [addrField]

/-! ## The tables -/

/-- A key that is found stands in the table. -/
theorem findPattern_mem {n : Nat} {w : BitVec n} {i : Instr} {l : List (BitVec n × Instr)} (h : findPattern w l = some i) :
    (w, i) ∈ l := by
  induction l with
  | nil => simp [findPattern] at h
  | cons c l ih =>
    obtain ⟨p, j⟩ := c
    by_cases hw : w = p
    · simp only [findPattern, hw, if_true, Option.some.injEq] at h
      simp [hw, h]
    · simp only [findPattern, hw, if_false] at h
      exact List.mem_cons_of_mem _ (ih h)

/-- No key is found exactly when it is none of the table's. -/
theorem findPattern_none {n : Nat} {w : BitVec n} {l : List (BitVec n × Instr)} :
    findPattern w l = none ↔ w ∉ l.map (·.1) := by
  induction l with
  | nil => simp [findPattern]
  | cons c l ih =>
    obtain ⟨p, j⟩ := c
    by_cases hw : w = p
    · simp [findPattern, hw]
    · simp [findPattern, hw]
      simpa using ih

/-- In a table of different keys each entry is found. -/
theorem findPattern_of_mem {n : Nat} {w : BitVec n} {i : Instr} {l : List (BitVec n × Instr)} (hl : (l.map (·.1)).Nodup)
    (h : (w, i) ∈ l) : findPattern w l = some i := by
  induction l with
  | nil => simp at h
  | cons c l ih =>
    obtain ⟨p, j⟩ := c
    simp only [List.map_cons, List.nodup_cons] at hl
    rcases List.mem_cons.1 h with h | h
    · cases h
      simp [findPattern]
    · have hw : w ≠ p := fun e => hl.1 (e ▸ List.mem_map_of_mem h)
      simp only [findPattern, hw, if_false]
      exact ih hl.2 h

theorem formatXPatterns_keys (t : OpcodeTable) : (formatXPatterns t).map (·.1) = t.patterns := rfl

theorem memRefOps_keys (t : OpcodeTable) (ind : Bool) (addr : Addr) : (memRefOps t ind addr).map (·.1) = t.ops := rfl

/-- What a legal table is (30_encoding.md R61). -/
theorem opcodeTable_wf {t : OpcodeTable} :
    t.wf = true ↔ t.ops.Nodup ∧ 7 ∉ t.ops ∧ t.patterns.Nodup ∧ ∀ p ∈ t.patterns, opField p = 7 := by
  simp [OpcodeTable.wf, opField, and_assoc]

/-- The default table is legal (30_encoding.md R64 to R66). -/
theorem defaultOpc_wf : Machine.defaultOpc.wf = true := by decide +kernel

/-- Every format-X pattern encodes its instruction. -/
theorem formatXPatterns_spec (t : OpcodeTable) : ∀ p ∈ formatXPatterns t, encode t p.2 = p.1 ∧ p.2.isMemRef = false := by
  simp [formatXPatterns, regRefPatterns, ioRefPatterns, encode, Instr.isMemRef]

/-- Every memory-reference entry encodes its instruction with the given fields. -/
theorem memRefOps_spec (t : OpcodeTable) (ind : Bool) (addr : Addr) :
    ∀ p ∈ memRefOps t ind addr, encode t p.2 = formatM ind p.1 addr ∧ p.2.isMemRef = true := by
  simp [memRefOps, encode, Instr.isMemRef]

/-- A format-X instruction stands in the patterns under its word. -/
theorem mem_formatXPatterns (t : OpcodeTable) (i : Instr) (h : i.isMemRef = false) : (encode t i, i) ∈ formatXPatterns t := by
  cases i <;> simp [Instr.isMemRef] at h <;> simp [formatXPatterns, regRefPatterns, ioRefPatterns, encode]

/-- A format-X word has 7 in bits 14:12 (30_encoding.md R61). -/
theorem opField_formatX {t : OpcodeTable} (ht : t.wf = true) {i : Instr} (h : i.isMemRef = false) :
    opField (encode t i) = 7 := by
  refine (opcodeTable_wf.1 ht).2.2.2 _ ?_
  rw [← formatXPatterns_keys]
  exact List.mem_map_of_mem (mem_formatXPatterns t i h)

/-- Seven different values of three bits that leave out 7 are all the others. -/
theorem mem_ops_iff {t : OpcodeTable} (ht : t.wf = true) (op : BitVec 3) : op ∈ t.ops ↔ op ≠ 7 := by
  obtain ⟨hn, h7, -, -⟩ := opcodeTable_wf.1 ht
  refine ⟨fun h e => h7 (e ▸ h), fun h => ?_⟩
  have hc : (7 :: t.ops).Nodup := List.nodup_cons.2 ⟨h7, hn⟩
  have hu : (7 :: t.ops).toFinset = Finset.univ := by
    rw [← Finset.card_eq_iff_eq_univ, List.toFinset_card_of_nodup hc]
    rfl
  have hm : op ∈ (7 :: t.ops).toFinset := hu ▸ Finset.mem_univ op
  rcases List.mem_cons.1 (List.mem_toFinset.1 hm) with e | e
  · exact absurd e h
  · exact e

/-- In a legal table the op values 0 to 6 are the memory-reference instructions' (30_encoding.md R61). -/
theorem memRefOf_none {t : OpcodeTable} (ht : t.wf = true) (op : BitVec 3) (ind : Bool) (addr : Addr) :
    memRefOf t op ind addr = none ↔ op = 7 := by
  rw [memRefOf, findPattern_none, memRefOps_keys, mem_ops_iff ht, not_not]

end Sys2Proof
end

