-- ==== Sys2Proof/Laws/Memory.lean ====
section
/-! SUPPORT. The laws of memory (20_memory.md R40, R43, R45, R47): every operation keeps the canonical form; a cell reads
as what was last stored in it; other cells keep their words. -/

namespace Sys2Proof.Machine

/-! ## Lists of cells -/

theorem wfFrom_mono {lo lo' : Nat} {m : Memory} (h : lo' ≤ lo) (hm : wfFrom lo m = true) : wfFrom lo' m = true := by
  cases m with
  | nil => rfl
  | cons c m =>
    obtain ⟨a, v⟩ := c
    simp only [wfFrom, Bool.and_eq_true, decide_eq_true_eq] at hm ⊢
    exact ⟨⟨⟨by omega, hm.1.1.2⟩, hm.1.2⟩, hm.2⟩

/-- Below the first address of a canonical list every cell is unlisted. -/
theorem lookup_below {lo a : Nat} {m : Memory} (hm : wfFrom lo m = true) (h : a < lo) : lookup m a = blankWord := by
  induction m generalizing lo with
  | nil => rfl
  | cons c m ih =>
    obtain ⟨k, v⟩ := c
    simp only [wfFrom, Bool.and_eq_true, decide_eq_true_eq] at hm
    have hk : k ≠ a := by omega
    simp only [lookup, hk, if_false]
    exact ih hm.2 (by omega)

theorem wfFrom_store {lo a : Nat} {m : Memory} (v : Word) (hm : wfFrom lo m = true) (hlo : lo ≤ a) (ha : a < 4096) :
    wfFrom lo (store m a v) = true := by
  induction m generalizing lo with
  | nil => by_cases hv : v = blankWord <;> simp [store, wfFrom, hv, hlo, ha]
  | cons c m ih =>
    obtain ⟨k, w⟩ := c
    have hc := hm
    simp only [wfFrom, Bool.and_eq_true, decide_eq_true_eq] at hc
    obtain ⟨⟨⟨h1, h2⟩, h3⟩, h4⟩ := hc
    simp only [store]
    by_cases hak : a < k
    · by_cases hv : v = blankWord
      · simp [hak, hv, hm]
      · simp [hak, hv, wfFrom, hlo, ha, h2, h3, h4]
    · by_cases hek : a = k
      · subst hek
        by_cases hv : v = blankWord
        · simp [hv]
          exact wfFrom_mono (by omega) h4
        · simp [hv, wfFrom, h1, h2, h4]
      · simp [hak, hek, wfFrom, h1, h2, h3]
        exact ih h4 (by omega)

theorem lookup_store_same {lo a : Nat} {m : Memory} (v : Word) (hm : wfFrom lo m = true) : lookup (store m a v) a = v := by
  induction m generalizing lo with
  | nil => by_cases hv : v = blankWord <;> simp [store, lookup, hv]
  | cons c m ih =>
    obtain ⟨k, w⟩ := c
    simp only [wfFrom, Bool.and_eq_true, decide_eq_true_eq] at hm
    obtain ⟨⟨⟨h1, h2⟩, h3⟩, h4⟩ := hm
    simp only [store]
    by_cases hak : a < k
    · by_cases hv : v = blankWord
      · have hk : k ≠ a := by omega
        simp only [hak, hv, if_true, lookup, hk, if_false]
        exact lookup_below h4 (by omega)
      · simp [hak, hv, lookup]
    · by_cases hek : a = k
      · subst hek
        by_cases hv : v = blankWord
        · simp only [hv, Nat.lt_irrefl, if_false, if_true]
          exact lookup_below h4 (by omega)
        · simp [hv, lookup]
      · have hk : k ≠ a := by omega
        simp only [hak, hek, if_false, lookup, hk]
        exact ih h4

theorem lookup_store_other {a b : Nat} (m : Memory) (v : Word) (h : b ≠ a) : lookup (store m a v) b = lookup m b := by
  induction m with
  | nil => by_cases hv : v = blankWord <;> simp [store, lookup, hv, h.symm]
  | cons c m ih =>
    obtain ⟨k, w⟩ := c
    simp only [store]
    by_cases hak : a < k
    · by_cases hv : v = blankWord <;> simp [hak, hv, lookup, h.symm]
    · by_cases hek : a = k
      · subst hek
        by_cases hv : v = blankWord <;> simp [hv, lookup, h.symm]
      · simp only [hak, hek, if_false, lookup, ih]

/-! ## Memory -/

/-- Every store keeps the canonical form. -/
theorem memWrite_wf {m : Memory} (a : Addr) (v : Word) (h : Memory.wf m = true) : Memory.wf (memWrite m a v) = true :=
  wfFrom_store v h (Nat.zero_le _) a.isLt

/-- A cell reads as the word just stored in it. -/
theorem memRead_memWrite_same {m : Memory} (a : Addr) (v : Word) (h : Memory.wf m = true) :
    memRead (memWrite m a v) a = v :=
  lookup_store_same v h

/-- A store leaves every other cell alone. -/
theorem memRead_memWrite_other (m : Memory) {a b : Addr} (v : Word) (h : b ≠ a) :
    memRead (memWrite m a v) b = memRead m b :=
  lookup_store_other m v (fun hn => h (BitVec.eq_of_toNat_eq hn))

/-- A cell of memory that lists nothing holds the unprogrammed word (20_memory.md R47). -/
theorem memRead_nil (a : Addr) : memRead [] a = 0xFFFF := rfl

/-- Reset memory is canonical. -/
theorem reset_memory_wf : Memory.wf State.reset.M = true := rfl

end Sys2Proof.Machine
end

