-- ==== Sys2Proof/Laws/State.lean ====
section
/-! SUPPORT. One lemma per field per state update, each true by rfl, so that no later proof unfolds a record update. -/

namespace Sys2Proof.Machine

/-! ## beginCycle -/

@[simp] theorem beginCycle_AR (s : State) : (beginCycle s).AR = s.AR := rfl
@[simp] theorem beginCycle_PC (s : State) : (beginCycle s).PC = s.PC := rfl
@[simp] theorem beginCycle_DR (s : State) : (beginCycle s).DR = s.DR := rfl
@[simp] theorem beginCycle_AC (s : State) : (beginCycle s).AC = s.AC := rfl
@[simp] theorem beginCycle_IR (s : State) : (beginCycle s).IR = s.IR := rfl
@[simp] theorem beginCycle_TR (s : State) : (beginCycle s).TR = s.TR := rfl
@[simp] theorem beginCycle_OUTR (s : State) : (beginCycle s).OUTR = s.OUTR := rfl
@[simp] theorem beginCycle_INPR (s : State) : (beginCycle s).INPR = s.INPR := rfl
@[simp] theorem beginCycle_E (s : State) : (beginCycle s).E = s.E := rfl
@[simp] theorem beginCycle_I (s : State) : (beginCycle s).I = s.I := rfl
@[simp] theorem beginCycle_S (s : State) : (beginCycle s).S = s.S := rfl
@[simp] theorem beginCycle_R (s : State) : (beginCycle s).R = s.R := rfl
@[simp] theorem beginCycle_IEN (s : State) : (beginCycle s).IEN = s.IEN := rfl
@[simp] theorem beginCycle_FGI (s : State) : (beginCycle s).FGI = s.FGI := rfl
@[simp] theorem beginCycle_FGO (s : State) : (beginCycle s).FGO = s.FGO := rfl
@[simp] theorem beginCycle_SC (s : State) : (beginCycle s).SC = s.SC := rfl
@[simp] theorem beginCycle_CUR (s : State) : (beginCycle s).CUR = s.CUR := rfl
@[simp] theorem beginCycle_M (s : State) : (beginCycle s).M = s.M := rfl
@[simp] theorem beginCycle_MLATCH (s : State) : (beginCycle s).MLATCH = s.MLATCH := rfl
@[simp] theorem beginCycle_BUSREC (s : State) : (beginCycle s).BUSREC = none := rfl
@[simp] theorem beginCycle_ALUREC (s : State) : (beginCycle s).ALUREC = s.ALUREC := rfl
@[simp] theorem beginCycle_cfg (s : State) : (beginCycle s).cfg = s.cfg := rfl
@[simp] theorem beginCycle_hostEvents (s : State) : (beginCycle s).hostEvents = s.hostEvents := rfl
@[simp] theorem beginCycle_hostTook (s : State) : (beginCycle s).hostTook = s.hostTook := rfl

/-! ## advance -/

@[simp] theorem advance_AR (s : State) : (advance s).AR = s.AR := rfl
@[simp] theorem advance_PC (s : State) : (advance s).PC = s.PC := rfl
@[simp] theorem advance_DR (s : State) : (advance s).DR = s.DR := rfl
@[simp] theorem advance_AC (s : State) : (advance s).AC = s.AC := rfl
@[simp] theorem advance_IR (s : State) : (advance s).IR = s.IR := rfl
@[simp] theorem advance_TR (s : State) : (advance s).TR = s.TR := rfl
@[simp] theorem advance_OUTR (s : State) : (advance s).OUTR = s.OUTR := rfl
@[simp] theorem advance_INPR (s : State) : (advance s).INPR = s.INPR := rfl
@[simp] theorem advance_E (s : State) : (advance s).E = s.E := rfl
@[simp] theorem advance_I (s : State) : (advance s).I = s.I := rfl
@[simp] theorem advance_S (s : State) : (advance s).S = s.S := rfl
@[simp] theorem advance_R (s : State) : (advance s).R = s.R := rfl
@[simp] theorem advance_IEN (s : State) : (advance s).IEN = s.IEN := rfl
@[simp] theorem advance_FGI (s : State) : (advance s).FGI = s.FGI := rfl
@[simp] theorem advance_FGO (s : State) : (advance s).FGO = s.FGO := rfl
@[simp] theorem advance_SC (s : State) : (advance s).SC = nextSC s.SC := rfl
@[simp] theorem advance_CUR (s : State) : (advance s).CUR = s.CUR := rfl
@[simp] theorem advance_M (s : State) : (advance s).M = s.M := rfl
@[simp] theorem advance_MLATCH (s : State) : (advance s).MLATCH = s.MLATCH := rfl
@[simp] theorem advance_BUSREC (s : State) : (advance s).BUSREC = s.BUSREC := rfl
@[simp] theorem advance_ALUREC (s : State) : (advance s).ALUREC = s.ALUREC := rfl
@[simp] theorem advance_cfg (s : State) : (advance s).cfg = s.cfg := rfl
@[simp] theorem advance_hostEvents (s : State) : (advance s).hostEvents = s.hostEvents := rfl
@[simp] theorem advance_hostTook (s : State) : (advance s).hostTook = s.hostTook := rfl

/-! ## complete -/

@[simp] theorem complete_AR (s : State) : (complete s).AR = s.AR := rfl
@[simp] theorem complete_PC (s : State) : (complete s).PC = s.PC := rfl
@[simp] theorem complete_DR (s : State) : (complete s).DR = s.DR := rfl
@[simp] theorem complete_AC (s : State) : (complete s).AC = s.AC := rfl
@[simp] theorem complete_IR (s : State) : (complete s).IR = s.IR := rfl
@[simp] theorem complete_TR (s : State) : (complete s).TR = s.TR := rfl
@[simp] theorem complete_OUTR (s : State) : (complete s).OUTR = s.OUTR := rfl
@[simp] theorem complete_INPR (s : State) : (complete s).INPR = s.INPR := rfl
@[simp] theorem complete_E (s : State) : (complete s).E = s.E := rfl
@[simp] theorem complete_I (s : State) : (complete s).I = s.I := rfl
@[simp] theorem complete_S (s : State) : (complete s).S = s.S := rfl
@[simp] theorem complete_R (s : State) : (complete s).R = interruptRequest s := rfl
@[simp] theorem complete_IEN (s : State) : (complete s).IEN = s.IEN := rfl
@[simp] theorem complete_FGI (s : State) : (complete s).FGI = s.FGI := rfl
@[simp] theorem complete_FGO (s : State) : (complete s).FGO = s.FGO := rfl
@[simp] theorem complete_SC (s : State) : (complete s).SC = .t0 := rfl
@[simp] theorem complete_CUR (s : State) : (complete s).CUR = s.CUR := rfl
@[simp] theorem complete_M (s : State) : (complete s).M = s.M := rfl
@[simp] theorem complete_MLATCH (s : State) : (complete s).MLATCH = s.MLATCH := rfl
@[simp] theorem complete_BUSREC (s : State) : (complete s).BUSREC = s.BUSREC := rfl
@[simp] theorem complete_ALUREC (s : State) : (complete s).ALUREC = s.ALUREC := rfl
@[simp] theorem complete_cfg (s : State) : (complete s).cfg = s.cfg := rfl
@[simp] theorem complete_hostEvents (s : State) : (complete s).hostEvents = s.hostEvents := rfl
@[simp] theorem complete_hostTook (s : State) : (complete s).hostTook = s.hostTook := rfl

/-! ## incrementPC -/

@[simp] theorem incrementPC_AR (s : State) : (incrementPC s).AR = s.AR := rfl
@[simp] theorem incrementPC_PC (s : State) : (incrementPC s).PC = s.PC + 1 := rfl
@[simp] theorem incrementPC_DR (s : State) : (incrementPC s).DR = s.DR := rfl
@[simp] theorem incrementPC_AC (s : State) : (incrementPC s).AC = s.AC := rfl
@[simp] theorem incrementPC_IR (s : State) : (incrementPC s).IR = s.IR := rfl
@[simp] theorem incrementPC_TR (s : State) : (incrementPC s).TR = s.TR := rfl
@[simp] theorem incrementPC_OUTR (s : State) : (incrementPC s).OUTR = s.OUTR := rfl
@[simp] theorem incrementPC_INPR (s : State) : (incrementPC s).INPR = s.INPR := rfl
@[simp] theorem incrementPC_E (s : State) : (incrementPC s).E = s.E := rfl
@[simp] theorem incrementPC_I (s : State) : (incrementPC s).I = s.I := rfl
@[simp] theorem incrementPC_S (s : State) : (incrementPC s).S = s.S := rfl
@[simp] theorem incrementPC_R (s : State) : (incrementPC s).R = s.R := rfl
@[simp] theorem incrementPC_IEN (s : State) : (incrementPC s).IEN = s.IEN := rfl
@[simp] theorem incrementPC_FGI (s : State) : (incrementPC s).FGI = s.FGI := rfl
@[simp] theorem incrementPC_FGO (s : State) : (incrementPC s).FGO = s.FGO := rfl
@[simp] theorem incrementPC_SC (s : State) : (incrementPC s).SC = s.SC := rfl
@[simp] theorem incrementPC_CUR (s : State) : (incrementPC s).CUR = s.CUR := rfl
@[simp] theorem incrementPC_M (s : State) : (incrementPC s).M = s.M := rfl
@[simp] theorem incrementPC_MLATCH (s : State) : (incrementPC s).MLATCH = s.MLATCH := rfl
@[simp] theorem incrementPC_BUSREC (s : State) : (incrementPC s).BUSREC = s.BUSREC := rfl
@[simp] theorem incrementPC_ALUREC (s : State) : (incrementPC s).ALUREC = s.ALUREC := rfl
@[simp] theorem incrementPC_cfg (s : State) : (incrementPC s).cfg = s.cfg := rfl
@[simp] theorem incrementPC_hostEvents (s : State) : (incrementPC s).hostEvents = s.hostEvents := rfl
@[simp] theorem incrementPC_hostTook (s : State) : (incrementPC s).hostTook = s.hostTook := rfl

/-! ## readMemory -/

@[simp] theorem readMemory_AR (s : State) : (readMemory s).AR = s.AR := rfl
@[simp] theorem readMemory_PC (s : State) : (readMemory s).PC = s.PC := rfl
@[simp] theorem readMemory_DR (s : State) : (readMemory s).DR = s.DR := rfl
@[simp] theorem readMemory_AC (s : State) : (readMemory s).AC = s.AC := rfl
@[simp] theorem readMemory_IR (s : State) : (readMemory s).IR = s.IR := rfl
@[simp] theorem readMemory_TR (s : State) : (readMemory s).TR = s.TR := rfl
@[simp] theorem readMemory_OUTR (s : State) : (readMemory s).OUTR = s.OUTR := rfl
@[simp] theorem readMemory_INPR (s : State) : (readMemory s).INPR = s.INPR := rfl
@[simp] theorem readMemory_E (s : State) : (readMemory s).E = s.E := rfl
@[simp] theorem readMemory_I (s : State) : (readMemory s).I = s.I := rfl
@[simp] theorem readMemory_S (s : State) : (readMemory s).S = s.S := rfl
@[simp] theorem readMemory_R (s : State) : (readMemory s).R = s.R := rfl
@[simp] theorem readMemory_IEN (s : State) : (readMemory s).IEN = s.IEN := rfl
@[simp] theorem readMemory_FGI (s : State) : (readMemory s).FGI = s.FGI := rfl
@[simp] theorem readMemory_FGO (s : State) : (readMemory s).FGO = s.FGO := rfl
@[simp] theorem readMemory_SC (s : State) : (readMemory s).SC = s.SC := rfl
@[simp] theorem readMemory_CUR (s : State) : (readMemory s).CUR = s.CUR := rfl
@[simp] theorem readMemory_M (s : State) : (readMemory s).M = s.M := rfl
@[simp] theorem readMemory_MLATCH (s : State) : (readMemory s).MLATCH = memRead s.M s.AR := rfl
@[simp] theorem readMemory_BUSREC (s : State) : (readMemory s).BUSREC = s.BUSREC := rfl
@[simp] theorem readMemory_ALUREC (s : State) : (readMemory s).ALUREC = s.ALUREC := rfl
@[simp] theorem readMemory_cfg (s : State) : (readMemory s).cfg = s.cfg := rfl
@[simp] theorem readMemory_hostEvents (s : State) : (readMemory s).hostEvents = s.hostEvents := rfl
@[simp] theorem readMemory_hostTook (s : State) : (readMemory s).hostTook = s.hostTook := rfl

/-! ## writeMemory -/

@[simp] theorem writeMemory_AR (s : State) : (writeMemory s).AR = s.AR := rfl
@[simp] theorem writeMemory_PC (s : State) : (writeMemory s).PC = s.PC := rfl
@[simp] theorem writeMemory_DR (s : State) : (writeMemory s).DR = s.DR := rfl
@[simp] theorem writeMemory_AC (s : State) : (writeMemory s).AC = s.AC := rfl
@[simp] theorem writeMemory_IR (s : State) : (writeMemory s).IR = s.IR := rfl
@[simp] theorem writeMemory_TR (s : State) : (writeMemory s).TR = s.TR := rfl
@[simp] theorem writeMemory_OUTR (s : State) : (writeMemory s).OUTR = s.OUTR := rfl
@[simp] theorem writeMemory_INPR (s : State) : (writeMemory s).INPR = s.INPR := rfl
@[simp] theorem writeMemory_E (s : State) : (writeMemory s).E = s.E := rfl
@[simp] theorem writeMemory_I (s : State) : (writeMemory s).I = s.I := rfl
@[simp] theorem writeMemory_S (s : State) : (writeMemory s).S = s.S := rfl
@[simp] theorem writeMemory_R (s : State) : (writeMemory s).R = s.R := rfl
@[simp] theorem writeMemory_IEN (s : State) : (writeMemory s).IEN = s.IEN := rfl
@[simp] theorem writeMemory_FGI (s : State) : (writeMemory s).FGI = s.FGI := rfl
@[simp] theorem writeMemory_FGO (s : State) : (writeMemory s).FGO = s.FGO := rfl
@[simp] theorem writeMemory_SC (s : State) : (writeMemory s).SC = s.SC := rfl
@[simp] theorem writeMemory_CUR (s : State) : (writeMemory s).CUR = s.CUR := rfl
@[simp] theorem writeMemory_M (s : State) : (writeMemory s).M = memWrite s.M s.AR s.MLATCH := rfl
@[simp] theorem writeMemory_MLATCH (s : State) : (writeMemory s).MLATCH = s.MLATCH := rfl
@[simp] theorem writeMemory_BUSREC (s : State) : (writeMemory s).BUSREC = s.BUSREC := rfl
@[simp] theorem writeMemory_ALUREC (s : State) : (writeMemory s).ALUREC = s.ALUREC := rfl
@[simp] theorem writeMemory_cfg (s : State) : (writeMemory s).cfg = s.cfg := rfl
@[simp] theorem writeMemory_hostEvents (s : State) : (writeMemory s).hostEvents = s.hostEvents := rfl
@[simp] theorem writeMemory_hostTook (s : State) : (writeMemory s).hostTook = s.hostTook := rfl

/-! ## latchWord, latchInstr

The proofs are `(rfl)` and not `rfl`, so that simp rewrites by these lemmas and the kernel never compares the literal fields
of an instruction's word with those of an arbitrary state. -/

@[simp] theorem latchWord_AR (w : Word) (cur : Option Mnemonic) (s : State) : (latchWord w cur s).AR = addrField w := (rfl)
@[simp] theorem latchWord_PC (w : Word) (cur : Option Mnemonic) (s : State) : (latchWord w cur s).PC = s.PC := (rfl)
@[simp] theorem latchWord_DR (w : Word) (cur : Option Mnemonic) (s : State) : (latchWord w cur s).DR = s.DR := (rfl)
@[simp] theorem latchWord_AC (w : Word) (cur : Option Mnemonic) (s : State) : (latchWord w cur s).AC = s.AC := (rfl)
@[simp] theorem latchWord_IR (w : Word) (cur : Option Mnemonic) (s : State) : (latchWord w cur s).IR = s.IR := (rfl)
@[simp] theorem latchWord_TR (w : Word) (cur : Option Mnemonic) (s : State) : (latchWord w cur s).TR = s.TR := (rfl)
@[simp] theorem latchWord_OUTR (w : Word) (cur : Option Mnemonic) (s : State) : (latchWord w cur s).OUTR = s.OUTR := (rfl)
@[simp] theorem latchWord_INPR (w : Word) (cur : Option Mnemonic) (s : State) : (latchWord w cur s).INPR = s.INPR := (rfl)
@[simp] theorem latchWord_E (w : Word) (cur : Option Mnemonic) (s : State) : (latchWord w cur s).E = s.E := (rfl)
@[simp] theorem latchWord_I (w : Word) (cur : Option Mnemonic) (s : State) : (latchWord w cur s).I = indirectField w := (rfl)
@[simp] theorem latchWord_S (w : Word) (cur : Option Mnemonic) (s : State) : (latchWord w cur s).S = s.S := (rfl)
@[simp] theorem latchWord_R (w : Word) (cur : Option Mnemonic) (s : State) : (latchWord w cur s).R = s.R := (rfl)
@[simp] theorem latchWord_IEN (w : Word) (cur : Option Mnemonic) (s : State) : (latchWord w cur s).IEN = s.IEN := (rfl)
@[simp] theorem latchWord_FGI (w : Word) (cur : Option Mnemonic) (s : State) : (latchWord w cur s).FGI = s.FGI := (rfl)
@[simp] theorem latchWord_FGO (w : Word) (cur : Option Mnemonic) (s : State) : (latchWord w cur s).FGO = s.FGO := (rfl)
@[simp] theorem latchWord_SC (w : Word) (cur : Option Mnemonic) (s : State) : (latchWord w cur s).SC = .t3 := (rfl)
@[simp] theorem latchWord_CUR (w : Word) (cur : Option Mnemonic) (s : State) : (latchWord w cur s).CUR = cur := (rfl)
@[simp] theorem latchWord_M (w : Word) (cur : Option Mnemonic) (s : State) : (latchWord w cur s).M = s.M := (rfl)
@[simp] theorem latchWord_MLATCH (w : Word) (cur : Option Mnemonic) (s : State) : (latchWord w cur s).MLATCH = s.MLATCH := (rfl)
@[simp] theorem latchWord_BUSREC (w : Word) (cur : Option Mnemonic) (s : State) : (latchWord w cur s).BUSREC = some ⟨.IR, .AR, w⟩ := (rfl)
@[simp] theorem latchWord_ALUREC (w : Word) (cur : Option Mnemonic) (s : State) : (latchWord w cur s).ALUREC = s.ALUREC := (rfl)
@[simp] theorem latchWord_cfg (w : Word) (cur : Option Mnemonic) (s : State) : (latchWord w cur s).cfg = s.cfg := (rfl)
@[simp] theorem latchWord_hostEvents (w : Word) (cur : Option Mnemonic) (s : State) : (latchWord w cur s).hostEvents = s.hostEvents := (rfl)
@[simp] theorem latchWord_hostTook (w : Word) (cur : Option Mnemonic) (s : State) : (latchWord w cur s).hostTook = s.hostTook := (rfl)

@[simp] theorem latchInstr_AR (i : Instr) (s : State) : (latchInstr i s).AR = addrField (encode s.cfg.opc i) := (rfl)
@[simp] theorem latchInstr_PC (i : Instr) (s : State) : (latchInstr i s).PC = s.PC := (rfl)
@[simp] theorem latchInstr_DR (i : Instr) (s : State) : (latchInstr i s).DR = s.DR := (rfl)
@[simp] theorem latchInstr_AC (i : Instr) (s : State) : (latchInstr i s).AC = s.AC := (rfl)
@[simp] theorem latchInstr_IR (i : Instr) (s : State) : (latchInstr i s).IR = s.IR := (rfl)
@[simp] theorem latchInstr_TR (i : Instr) (s : State) : (latchInstr i s).TR = s.TR := (rfl)
@[simp] theorem latchInstr_OUTR (i : Instr) (s : State) : (latchInstr i s).OUTR = s.OUTR := (rfl)
@[simp] theorem latchInstr_INPR (i : Instr) (s : State) : (latchInstr i s).INPR = s.INPR := (rfl)
@[simp] theorem latchInstr_E (i : Instr) (s : State) : (latchInstr i s).E = s.E := (rfl)
@[simp] theorem latchInstr_I (i : Instr) (s : State) : (latchInstr i s).I = indirectField (encode s.cfg.opc i) := (rfl)
@[simp] theorem latchInstr_S (i : Instr) (s : State) : (latchInstr i s).S = s.S := (rfl)
@[simp] theorem latchInstr_R (i : Instr) (s : State) : (latchInstr i s).R = s.R := (rfl)
@[simp] theorem latchInstr_IEN (i : Instr) (s : State) : (latchInstr i s).IEN = s.IEN := (rfl)
@[simp] theorem latchInstr_FGI (i : Instr) (s : State) : (latchInstr i s).FGI = s.FGI := (rfl)
@[simp] theorem latchInstr_FGO (i : Instr) (s : State) : (latchInstr i s).FGO = s.FGO := (rfl)
@[simp] theorem latchInstr_SC (i : Instr) (s : State) : (latchInstr i s).SC = .t3 := (rfl)
@[simp] theorem latchInstr_CUR (i : Instr) (s : State) : (latchInstr i s).CUR = some (mnemonicOf i) := (rfl)
@[simp] theorem latchInstr_M (i : Instr) (s : State) : (latchInstr i s).M = s.M := (rfl)
@[simp] theorem latchInstr_MLATCH (i : Instr) (s : State) : (latchInstr i s).MLATCH = s.MLATCH := (rfl)
@[simp] theorem latchInstr_BUSREC (i : Instr) (s : State) : (latchInstr i s).BUSREC = some ⟨.IR, .AR, encode s.cfg.opc i⟩ := (rfl)
@[simp] theorem latchInstr_ALUREC (i : Instr) (s : State) : (latchInstr i s).ALUREC = s.ALUREC := (rfl)
@[simp] theorem latchInstr_cfg (i : Instr) (s : State) : (latchInstr i s).cfg = s.cfg := (rfl)
@[simp] theorem latchInstr_hostEvents (i : Instr) (s : State) : (latchInstr i s).hostEvents = s.hostEvents := (rfl)
@[simp] theorem latchInstr_hostTook (i : Instr) (s : State) : (latchInstr i s).hostTook = s.hostTook := (rfl)

/-! ## interruptRT2 -/

@[simp] theorem interruptRT2_AR (s : State) : (interruptRT2 s).AR = s.AR := rfl
@[simp] theorem interruptRT2_PC (s : State) : (interruptRT2 s).PC = s.PC + 1 := rfl
@[simp] theorem interruptRT2_DR (s : State) : (interruptRT2 s).DR = s.DR := rfl
@[simp] theorem interruptRT2_AC (s : State) : (interruptRT2 s).AC = s.AC := rfl
@[simp] theorem interruptRT2_IR (s : State) : (interruptRT2 s).IR = s.IR := rfl
@[simp] theorem interruptRT2_TR (s : State) : (interruptRT2 s).TR = s.TR := rfl
@[simp] theorem interruptRT2_OUTR (s : State) : (interruptRT2 s).OUTR = s.OUTR := rfl
@[simp] theorem interruptRT2_INPR (s : State) : (interruptRT2 s).INPR = s.INPR := rfl
@[simp] theorem interruptRT2_E (s : State) : (interruptRT2 s).E = s.E := rfl
@[simp] theorem interruptRT2_I (s : State) : (interruptRT2 s).I = s.I := rfl
@[simp] theorem interruptRT2_S (s : State) : (interruptRT2 s).S = s.S := rfl
@[simp] theorem interruptRT2_R (s : State) : (interruptRT2 s).R = false := rfl
@[simp] theorem interruptRT2_IEN (s : State) : (interruptRT2 s).IEN = false := rfl
@[simp] theorem interruptRT2_FGI (s : State) : (interruptRT2 s).FGI = s.FGI := rfl
@[simp] theorem interruptRT2_FGO (s : State) : (interruptRT2 s).FGO = s.FGO := rfl
@[simp] theorem interruptRT2_SC (s : State) : (interruptRT2 s).SC = .t0 := rfl
@[simp] theorem interruptRT2_CUR (s : State) : (interruptRT2 s).CUR = s.CUR := rfl
@[simp] theorem interruptRT2_M (s : State) : (interruptRT2 s).M = s.M := rfl
@[simp] theorem interruptRT2_MLATCH (s : State) : (interruptRT2 s).MLATCH = s.MLATCH := rfl
@[simp] theorem interruptRT2_BUSREC (s : State) : (interruptRT2 s).BUSREC = s.BUSREC := rfl
@[simp] theorem interruptRT2_ALUREC (s : State) : (interruptRT2 s).ALUREC = s.ALUREC := rfl
@[simp] theorem interruptRT2_cfg (s : State) : (interruptRT2 s).cfg = s.cfg := rfl
@[simp] theorem interruptRT2_hostEvents (s : State) : (interruptRT2 s).hostEvents = s.hostEvents := rfl
@[simp] theorem interruptRT2_hostTook (s : State) : (interruptRT2 s).hostTook = s.hostTook := rfl

/-! ## hostInput -/

@[simp] theorem hostInput_AR (b : Int) (s : State) : (hostInput b s).AR = s.AR := rfl
@[simp] theorem hostInput_PC (b : Int) (s : State) : (hostInput b s).PC = s.PC := rfl
@[simp] theorem hostInput_DR (b : Int) (s : State) : (hostInput b s).DR = s.DR := rfl
@[simp] theorem hostInput_AC (b : Int) (s : State) : (hostInput b s).AC = s.AC := rfl
@[simp] theorem hostInput_IR (b : Int) (s : State) : (hostInput b s).IR = s.IR := rfl
@[simp] theorem hostInput_TR (b : Int) (s : State) : (hostInput b s).TR = s.TR := rfl
@[simp] theorem hostInput_OUTR (b : Int) (s : State) : (hostInput b s).OUTR = s.OUTR := rfl
@[simp] theorem hostInput_INPR (b : Int) (s : State) : (hostInput b s).INPR = BitVec.ofInt 8 b := rfl
@[simp] theorem hostInput_E (b : Int) (s : State) : (hostInput b s).E = s.E := rfl
@[simp] theorem hostInput_I (b : Int) (s : State) : (hostInput b s).I = s.I := rfl
@[simp] theorem hostInput_S (b : Int) (s : State) : (hostInput b s).S = s.S := rfl
@[simp] theorem hostInput_R (b : Int) (s : State) : (hostInput b s).R = s.R := rfl
@[simp] theorem hostInput_IEN (b : Int) (s : State) : (hostInput b s).IEN = s.IEN := rfl
@[simp] theorem hostInput_FGI (b : Int) (s : State) : (hostInput b s).FGI = true := rfl
@[simp] theorem hostInput_FGO (b : Int) (s : State) : (hostInput b s).FGO = s.FGO := rfl
@[simp] theorem hostInput_SC (b : Int) (s : State) : (hostInput b s).SC = s.SC := rfl
@[simp] theorem hostInput_CUR (b : Int) (s : State) : (hostInput b s).CUR = s.CUR := rfl
@[simp] theorem hostInput_M (b : Int) (s : State) : (hostInput b s).M = s.M := rfl
@[simp] theorem hostInput_MLATCH (b : Int) (s : State) : (hostInput b s).MLATCH = s.MLATCH := rfl
@[simp] theorem hostInput_BUSREC (b : Int) (s : State) : (hostInput b s).BUSREC = s.BUSREC := rfl
@[simp] theorem hostInput_ALUREC (b : Int) (s : State) : (hostInput b s).ALUREC = s.ALUREC := rfl
@[simp] theorem hostInput_cfg (b : Int) (s : State) : (hostInput b s).cfg = s.cfg := rfl
@[simp] theorem hostInput_hostEvents (b : Int) (s : State) : (hostInput b s).hostEvents = s.hostEvents := rfl
@[simp] theorem hostInput_hostTook (b : Int) (s : State) : (hostInput b s).hostTook = s.hostTook := rfl

/-! ## hostSetMem -/

@[simp] theorem hostSetMem_AR (a : Addr) (v : Nat) (s : State) : (hostSetMem a v s).AR = s.AR := rfl
@[simp] theorem hostSetMem_PC (a : Addr) (v : Nat) (s : State) : (hostSetMem a v s).PC = s.PC := rfl
@[simp] theorem hostSetMem_DR (a : Addr) (v : Nat) (s : State) : (hostSetMem a v s).DR = s.DR := rfl
@[simp] theorem hostSetMem_AC (a : Addr) (v : Nat) (s : State) : (hostSetMem a v s).AC = s.AC := rfl
@[simp] theorem hostSetMem_IR (a : Addr) (v : Nat) (s : State) : (hostSetMem a v s).IR = s.IR := rfl
@[simp] theorem hostSetMem_TR (a : Addr) (v : Nat) (s : State) : (hostSetMem a v s).TR = s.TR := rfl
@[simp] theorem hostSetMem_OUTR (a : Addr) (v : Nat) (s : State) : (hostSetMem a v s).OUTR = s.OUTR := rfl
@[simp] theorem hostSetMem_INPR (a : Addr) (v : Nat) (s : State) : (hostSetMem a v s).INPR = s.INPR := rfl
@[simp] theorem hostSetMem_E (a : Addr) (v : Nat) (s : State) : (hostSetMem a v s).E = s.E := rfl
@[simp] theorem hostSetMem_I (a : Addr) (v : Nat) (s : State) : (hostSetMem a v s).I = s.I := rfl
@[simp] theorem hostSetMem_S (a : Addr) (v : Nat) (s : State) : (hostSetMem a v s).S = s.S := rfl
@[simp] theorem hostSetMem_R (a : Addr) (v : Nat) (s : State) : (hostSetMem a v s).R = s.R := rfl
@[simp] theorem hostSetMem_IEN (a : Addr) (v : Nat) (s : State) : (hostSetMem a v s).IEN = s.IEN := rfl
@[simp] theorem hostSetMem_FGI (a : Addr) (v : Nat) (s : State) : (hostSetMem a v s).FGI = s.FGI := rfl
@[simp] theorem hostSetMem_FGO (a : Addr) (v : Nat) (s : State) : (hostSetMem a v s).FGO = s.FGO := rfl
@[simp] theorem hostSetMem_SC (a : Addr) (v : Nat) (s : State) : (hostSetMem a v s).SC = s.SC := rfl
@[simp] theorem hostSetMem_CUR (a : Addr) (v : Nat) (s : State) : (hostSetMem a v s).CUR = s.CUR := rfl
@[simp] theorem hostSetMem_M (a : Addr) (v : Nat) (s : State) : (hostSetMem a v s).M = memWrite s.M a (BitVec.ofNat 16 v) := rfl
@[simp] theorem hostSetMem_MLATCH (a : Addr) (v : Nat) (s : State) : (hostSetMem a v s).MLATCH = s.MLATCH := rfl
@[simp] theorem hostSetMem_BUSREC (a : Addr) (v : Nat) (s : State) : (hostSetMem a v s).BUSREC = s.BUSREC := rfl
@[simp] theorem hostSetMem_ALUREC (a : Addr) (v : Nat) (s : State) : (hostSetMem a v s).ALUREC = s.ALUREC := rfl
@[simp] theorem hostSetMem_cfg (a : Addr) (v : Nat) (s : State) : (hostSetMem a v s).cfg = s.cfg := rfl
@[simp] theorem hostSetMem_hostEvents (a : Addr) (v : Nat) (s : State) : (hostSetMem a v s).hostEvents = s.hostEvents := rfl
@[simp] theorem hostSetMem_hostTook (a : Addr) (v : Nat) (s : State) : (hostSetMem a v s).hostTook = s.hostTook := rfl

/-! ## skipIf: only PC may change -/

theorem skipIf_PC (c : Bool) (s : State) : (skipIf c s).PC = if c then s.PC + 1 else s.PC := by
  cases c <;> rfl

@[simp] theorem skipIf_AR (c : Bool) (s : State) : (skipIf c s).AR = s.AR := by cases c <;> rfl
@[simp] theorem skipIf_DR (c : Bool) (s : State) : (skipIf c s).DR = s.DR := by cases c <;> rfl
@[simp] theorem skipIf_AC (c : Bool) (s : State) : (skipIf c s).AC = s.AC := by cases c <;> rfl
@[simp] theorem skipIf_IR (c : Bool) (s : State) : (skipIf c s).IR = s.IR := by cases c <;> rfl
@[simp] theorem skipIf_TR (c : Bool) (s : State) : (skipIf c s).TR = s.TR := by cases c <;> rfl
@[simp] theorem skipIf_OUTR (c : Bool) (s : State) : (skipIf c s).OUTR = s.OUTR := by cases c <;> rfl
@[simp] theorem skipIf_INPR (c : Bool) (s : State) : (skipIf c s).INPR = s.INPR := by cases c <;> rfl
@[simp] theorem skipIf_E (c : Bool) (s : State) : (skipIf c s).E = s.E := by cases c <;> rfl
@[simp] theorem skipIf_I (c : Bool) (s : State) : (skipIf c s).I = s.I := by cases c <;> rfl
@[simp] theorem skipIf_S (c : Bool) (s : State) : (skipIf c s).S = s.S := by cases c <;> rfl
@[simp] theorem skipIf_R (c : Bool) (s : State) : (skipIf c s).R = s.R := by cases c <;> rfl
@[simp] theorem skipIf_IEN (c : Bool) (s : State) : (skipIf c s).IEN = s.IEN := by cases c <;> rfl
@[simp] theorem skipIf_FGI (c : Bool) (s : State) : (skipIf c s).FGI = s.FGI := by cases c <;> rfl
@[simp] theorem skipIf_FGO (c : Bool) (s : State) : (skipIf c s).FGO = s.FGO := by cases c <;> rfl
@[simp] theorem skipIf_SC (c : Bool) (s : State) : (skipIf c s).SC = s.SC := by cases c <;> rfl
@[simp] theorem skipIf_CUR (c : Bool) (s : State) : (skipIf c s).CUR = s.CUR := by cases c <;> rfl
@[simp] theorem skipIf_M (c : Bool) (s : State) : (skipIf c s).M = s.M := by cases c <;> rfl
@[simp] theorem skipIf_MLATCH (c : Bool) (s : State) : (skipIf c s).MLATCH = s.MLATCH := by cases c <;> rfl
@[simp] theorem skipIf_BUSREC (c : Bool) (s : State) : (skipIf c s).BUSREC = s.BUSREC := by cases c <;> rfl
@[simp] theorem skipIf_ALUREC (c : Bool) (s : State) : (skipIf c s).ALUREC = s.ALUREC := by cases c <;> rfl
@[simp] theorem skipIf_cfg (c : Bool) (s : State) : (skipIf c s).cfg = s.cfg := by cases c <;> rfl
@[simp] theorem skipIf_hostEvents (c : Bool) (s : State) : (skipIf c s).hostEvents = s.hostEvents := by cases c <;> rfl
@[simp] theorem skipIf_hostTook (c : Bool) (s : State) : (skipIf c s).hostTook = s.hostTook := by cases c <;> rfl

/-! ## load: only the destination and BUSREC may change -/

@[simp] theorem load_BUSREC (dst src : Endpoint) (s : State) :
    (load dst src s).BUSREC = some ⟨src, dst, busSource src s⟩ := by
  cases dst <;> rfl

@[simp] theorem load_INPR (dst src : Endpoint) (s : State) : (load dst src s).INPR = s.INPR := by cases dst <;> rfl
@[simp] theorem load_E (dst src : Endpoint) (s : State) : (load dst src s).E = s.E := by cases dst <;> rfl
@[simp] theorem load_I (dst src : Endpoint) (s : State) : (load dst src s).I = s.I := by cases dst <;> rfl
@[simp] theorem load_S (dst src : Endpoint) (s : State) : (load dst src s).S = s.S := by cases dst <;> rfl
@[simp] theorem load_R (dst src : Endpoint) (s : State) : (load dst src s).R = s.R := by cases dst <;> rfl
@[simp] theorem load_IEN (dst src : Endpoint) (s : State) : (load dst src s).IEN = s.IEN := by cases dst <;> rfl
@[simp] theorem load_FGI (dst src : Endpoint) (s : State) : (load dst src s).FGI = s.FGI := by cases dst <;> rfl
@[simp] theorem load_FGO (dst src : Endpoint) (s : State) : (load dst src s).FGO = s.FGO := by cases dst <;> rfl
@[simp] theorem load_SC (dst src : Endpoint) (s : State) : (load dst src s).SC = s.SC := by cases dst <;> rfl
@[simp] theorem load_CUR (dst src : Endpoint) (s : State) : (load dst src s).CUR = s.CUR := by cases dst <;> rfl
@[simp] theorem load_M (dst src : Endpoint) (s : State) : (load dst src s).M = s.M := by cases dst <;> rfl
@[simp] theorem load_ALUREC (dst src : Endpoint) (s : State) : (load dst src s).ALUREC = s.ALUREC := by cases dst <;> rfl
@[simp] theorem load_cfg (dst src : Endpoint) (s : State) : (load dst src s).cfg = s.cfg := by cases dst <;> rfl
@[simp] theorem load_hostEvents (dst src : Endpoint) (s : State) : (load dst src s).hostEvents = s.hostEvents := by cases dst <;> rfl
@[simp] theorem load_hostTook (dst src : Endpoint) (s : State) : (load dst src s).hostTook = s.hostTook := by cases dst <;> rfl

/-! ## aluToAC: only AC, E and ALUREC may change -/

@[simp] theorem aluToAC_AR (op : AluOp) (a b : Option Reg) (s : State) : (aluToAC op a b s).AR = s.AR := rfl
@[simp] theorem aluToAC_PC (op : AluOp) (a b : Option Reg) (s : State) : (aluToAC op a b s).PC = s.PC := rfl
@[simp] theorem aluToAC_DR (op : AluOp) (a b : Option Reg) (s : State) : (aluToAC op a b s).DR = s.DR := rfl
@[simp] theorem aluToAC_IR (op : AluOp) (a b : Option Reg) (s : State) : (aluToAC op a b s).IR = s.IR := rfl
@[simp] theorem aluToAC_TR (op : AluOp) (a b : Option Reg) (s : State) : (aluToAC op a b s).TR = s.TR := rfl
@[simp] theorem aluToAC_OUTR (op : AluOp) (a b : Option Reg) (s : State) : (aluToAC op a b s).OUTR = s.OUTR := rfl
@[simp] theorem aluToAC_INPR (op : AluOp) (a b : Option Reg) (s : State) : (aluToAC op a b s).INPR = s.INPR := rfl
@[simp] theorem aluToAC_I (op : AluOp) (a b : Option Reg) (s : State) : (aluToAC op a b s).I = s.I := rfl
@[simp] theorem aluToAC_S (op : AluOp) (a b : Option Reg) (s : State) : (aluToAC op a b s).S = s.S := rfl
@[simp] theorem aluToAC_R (op : AluOp) (a b : Option Reg) (s : State) : (aluToAC op a b s).R = s.R := rfl
@[simp] theorem aluToAC_IEN (op : AluOp) (a b : Option Reg) (s : State) : (aluToAC op a b s).IEN = s.IEN := rfl
@[simp] theorem aluToAC_FGI (op : AluOp) (a b : Option Reg) (s : State) : (aluToAC op a b s).FGI = s.FGI := rfl
@[simp] theorem aluToAC_FGO (op : AluOp) (a b : Option Reg) (s : State) : (aluToAC op a b s).FGO = s.FGO := rfl
@[simp] theorem aluToAC_SC (op : AluOp) (a b : Option Reg) (s : State) : (aluToAC op a b s).SC = s.SC := rfl
@[simp] theorem aluToAC_CUR (op : AluOp) (a b : Option Reg) (s : State) : (aluToAC op a b s).CUR = s.CUR := rfl
@[simp] theorem aluToAC_M (op : AluOp) (a b : Option Reg) (s : State) : (aluToAC op a b s).M = s.M := rfl
@[simp] theorem aluToAC_MLATCH (op : AluOp) (a b : Option Reg) (s : State) : (aluToAC op a b s).MLATCH = s.MLATCH := rfl
@[simp] theorem aluToAC_BUSREC (op : AluOp) (a b : Option Reg) (s : State) : (aluToAC op a b s).BUSREC = s.BUSREC := rfl
@[simp] theorem aluToAC_cfg (op : AluOp) (a b : Option Reg) (s : State) : (aluToAC op a b s).cfg = s.cfg := rfl
@[simp] theorem aluToAC_hostEvents (op : AluOp) (a b : Option Reg) (s : State) : (aluToAC op a b s).hostEvents = s.hostEvents := rfl
@[simp] theorem aluToAC_hostTook (op : AluOp) (a b : Option Reg) (s : State) : (aluToAC op a b s).hostTook = s.hostTook := rfl

/-! ## construct -/

@[simp] theorem construct_AR (c : Config) (image : Memory) : (construct c image).AR = c.reset.AR := rfl
@[simp] theorem construct_PC (c : Config) (image : Memory) : (construct c image).PC = c.reset.PC := rfl
@[simp] theorem construct_DR (c : Config) (image : Memory) : (construct c image).DR = c.reset.DR := rfl
@[simp] theorem construct_AC (c : Config) (image : Memory) : (construct c image).AC = c.reset.AC := rfl
@[simp] theorem construct_IR (c : Config) (image : Memory) : (construct c image).IR = c.reset.IR := rfl
@[simp] theorem construct_TR (c : Config) (image : Memory) : (construct c image).TR = c.reset.TR := rfl
@[simp] theorem construct_OUTR (c : Config) (image : Memory) : (construct c image).OUTR = c.reset.OUTR := rfl
@[simp] theorem construct_INPR (c : Config) (image : Memory) : (construct c image).INPR = c.reset.INPR := rfl
@[simp] theorem construct_E (c : Config) (image : Memory) : (construct c image).E = c.reset.E := rfl
@[simp] theorem construct_I (c : Config) (image : Memory) : (construct c image).I = c.reset.I := rfl
@[simp] theorem construct_S (c : Config) (image : Memory) : (construct c image).S = c.reset.S := rfl
@[simp] theorem construct_R (c : Config) (image : Memory) : (construct c image).R = c.reset.R := rfl
@[simp] theorem construct_IEN (c : Config) (image : Memory) : (construct c image).IEN = c.reset.IEN := rfl
@[simp] theorem construct_FGI (c : Config) (image : Memory) : (construct c image).FGI = c.reset.FGI := rfl
@[simp] theorem construct_FGO (c : Config) (image : Memory) : (construct c image).FGO = c.reset.FGO := rfl
@[simp] theorem construct_SC (c : Config) (image : Memory) : (construct c image).SC = c.reset.SC := rfl
@[simp] theorem construct_CUR (c : Config) (image : Memory) : (construct c image).CUR = c.reset.CUR := rfl
@[simp] theorem construct_MLATCH (c : Config) (image : Memory) : (construct c image).MLATCH = c.reset.MLATCH := rfl
@[simp] theorem construct_BUSREC (c : Config) (image : Memory) : (construct c image).BUSREC = c.reset.BUSREC := rfl
@[simp] theorem construct_ALUREC (c : Config) (image : Memory) : (construct c image).ALUREC = c.reset.ALUREC := rfl
@[simp] theorem construct_M (c : Config) (image : Memory) : (construct c image).M = image := rfl
@[simp] theorem construct_cfg (c : Config) (image : Memory) : (construct c image).cfg = c := rfl
@[simp] theorem construct_hostEvents (c : Config) (image : Memory) : (construct c image).hostEvents = [] := rfl
@[simp] theorem construct_hostTook (c : Config) (image : Memory) : (construct c image).hostTook = [] := rfl

end Sys2Proof.Machine
end

