-- ==== Sys2Proof/Laws/Ops.lean ====
section
/-! SUPPORT. What the shared operations can do, said once: the Bus's transfers (40_datapath.md R106), the host's due events,
the running of T-states, the interrupt cycle. -/

namespace Sys2Proof.Machine

/-! ## Width conversion on a transfer (40_datapath.md R105) -/

/-- An address driven on the bus and kept by an address register is unchanged. -/
@[simp] theorem ofNat_toNat_addr (a : Addr) : BitVec.ofNat 12 (BitVec.toNat (BitVec.setWidth 16 a)) = a := by
  apply BitVec.eq_of_toNat_eq
  have := a.isLt
  simp
  omega

/-- An address register keeps the low 12 bits of a word. -/
@[simp] theorem ofNat_toNat_word (w : Word) : BitVec.ofNat 12 w.toNat = addrField w := by
  rw [BitVec.ofNat_toNat]
  exact setWidth_twelve w

/-! ## The transfers that T-states make -/

theorem load_AR_PC (s : State) :
    load .AR .PC s = { s with AR := s.PC, BUSREC := some ⟨.PC, .AR, s.PC.setWidth 16⟩ } := by
  simp only [load, busSource, busDestination, regRead, regWrite, ofNat_toNat_addr]

theorem load_PC_AR (s : State) :
    load .PC .AR s = { s with PC := s.AR, BUSREC := some ⟨.AR, .PC, s.AR.setWidth 16⟩ } := by
  simp only [load, busSource, busDestination, regRead, regWrite, ofNat_toNat_addr]

theorem load_TR_PC (s : State) :
    load .TR .PC s = { s with TR := s.PC.setWidth 16, BUSREC := some ⟨.PC, .TR, s.PC.setWidth 16⟩ } := by
  simp only [load, busSource, busDestination, regRead, regWrite, BitVec.ofNat_toNat, BitVec.setWidth_eq]

theorem load_OUTR_AC (s : State) :
    load .OUTR .AC s = { s with OUTR := s.AC.setWidth 8, BUSREC := some ⟨.AC, .OUTR, s.AC⟩ } := by
  simp [load, busSource, busDestination, regRead, regWrite]

theorem loadFromMemory_AR (s : State) :
    loadFromMemory .AR s =
      { s with
        AR := addrField (memRead s.M s.AR)
        MLATCH := memRead s.M s.AR
        BUSREC := some ⟨.MEM, .AR, memRead s.M s.AR⟩ } := by
  simp only [loadFromMemory, load, busSource, busDestination, regWrite, readMemory, ofNat_toNat_word]

theorem loadFromMemory_DR (s : State) :
    loadFromMemory .DR s =
      { s with
        DR := memRead s.M s.AR
        MLATCH := memRead s.M s.AR
        BUSREC := some ⟨.MEM, .DR, memRead s.M s.AR⟩ } := by
  simp [loadFromMemory, load, busSource, busDestination, regWrite, readMemory]

theorem loadFromMemory_IR (s : State) :
    loadFromMemory .IR s =
      { s with
        IR := memRead s.M s.AR
        MLATCH := memRead s.M s.AR
        BUSREC := some ⟨.MEM, .IR, memRead s.M s.AR⟩ } := by
  simp [loadFromMemory, load, busSource, busDestination, regWrite, readMemory]

/-- A store of a register: the word goes to M[AR], the latch and the record. -/
theorem storeToMemory_eq (src : Endpoint) (s : State) :
    storeToMemory src s =
      { s with
        M := memWrite s.M s.AR (busSource src s)
        MLATCH := busSource src s
        BUSREC := some ⟨src, .MEM, busSource src s⟩ } := rfl

/-! ## Host events -/

@[simp] theorem hostDue_quiet {s : State} (h : s.hostEvents = []) : hostDue s = s := by
  simp [hostDue, h]

/-- The coming cycle's events, one list, and the schedule moved on. -/
theorem hostDue_cons {s : State} {es : List HostEvent} {rest : List (List HostEvent)} (h : s.hostEvents = es :: rest) :
    hostDue s = applyHostAll es { s with hostEvents := rest } := by
  simp [hostDue, h]

/-- What no host event writes (60_exceptions.md R201), with the model's schedule and parameters. -/
structure SameControl (s t : State) : Prop where
  E : t.E = s.E
  I : t.I = s.I
  S : t.S = s.S
  R : t.R = s.R
  IEN : t.IEN = s.IEN
  SC : t.SC = s.SC
  CUR : t.CUR = s.CUR
  MLATCH : t.MLATCH = s.MLATCH
  BUSREC : t.BUSREC = s.BUSREC
  ALUREC : t.ALUREC = s.ALUREC
  cfg : t.cfg = s.cfg

theorem SameControl.trans {s t u : State} (h : SameControl s t) (k : SameControl t u) : SameControl s u :=
  ⟨k.E.trans h.E, k.I.trans h.I, k.S.trans h.S, k.R.trans h.R, k.IEN.trans h.IEN, k.SC.trans h.SC, k.CUR.trans h.CUR,
    k.MLATCH.trans h.MLATCH, k.BUSREC.trans h.BUSREC, k.ALUREC.trans h.ALUREC, k.cfg.trans h.cfg⟩

theorem regWrite_sameControl (X : Reg) (v : Nat) (s : State) : SameControl s (regWrite X v s) := by
  cases X <;> exact ⟨rfl, rfl, rfl, rfl, rfl, rfl, rfl, rfl, rfl, rfl, rfl⟩

theorem applyHost_sameControl (e : HostEvent) (s : State) : SameControl s (applyHost e s) := by
  cases e with
  | setReg X v => exact regWrite_sameControl X v s
  | outputDrain =>
    cases h : s.FGO <;> simp only [applyHost, hostOutputDrain, h] <;>
      exact ⟨rfl, rfl, rfl, rfl, rfl, rfl, rfl, rfl, rfl, rfl, rfl⟩
  | input b => exact ⟨rfl, rfl, rfl, rfl, rfl, rfl, rfl, rfl, rfl, rfl, rfl⟩
  | setMem a v => exact ⟨rfl, rfl, rfl, rfl, rfl, rfl, rfl, rfl, rfl, rfl, rfl⟩
  | snapshot => exact ⟨rfl, rfl, rfl, rfl, rfl, rfl, rfl, rfl, rfl, rfl, rfl⟩

theorem applyHostAll_sameControl (es : List HostEvent) (s : State) : SameControl s (applyHostAll es s) := by
  induction es generalizing s with
  | nil => exact ⟨rfl, rfl, rfl, rfl, rfl, rfl, rfl, rfl, rfl, rfl, rfl⟩
  | cons e es ih => exact (applyHost_sameControl e s).trans (ih _)

theorem hostDue_sameControl (s : State) : SameControl s (hostDue s) := by
  unfold hostDue
  split
  · exact ⟨rfl, rfl, rfl, rfl, rfl, rfl, rfl, rfl, rfl, rfl, rfl⟩
  · next es rest _ =>
    have h := applyHostAll_sameControl es { s with hostEvents := rest }
    exact ⟨h.E, h.I, h.S, h.R, h.IEN, h.SC, h.CUR, h.MLATCH, h.BUSREC, h.ALUREC, h.cfg⟩

@[simp] theorem hostDue_E (s : State) : (hostDue s).E = s.E := (hostDue_sameControl s).E
@[simp] theorem hostDue_I (s : State) : (hostDue s).I = s.I := (hostDue_sameControl s).I
@[simp] theorem hostDue_S (s : State) : (hostDue s).S = s.S := (hostDue_sameControl s).S
@[simp] theorem hostDue_R (s : State) : (hostDue s).R = s.R := (hostDue_sameControl s).R
@[simp] theorem hostDue_IEN (s : State) : (hostDue s).IEN = s.IEN := (hostDue_sameControl s).IEN
@[simp] theorem hostDue_SC (s : State) : (hostDue s).SC = s.SC := (hostDue_sameControl s).SC
@[simp] theorem hostDue_CUR (s : State) : (hostDue s).CUR = s.CUR := (hostDue_sameControl s).CUR
@[simp] theorem hostDue_MLATCH (s : State) : (hostDue s).MLATCH = s.MLATCH := (hostDue_sameControl s).MLATCH
@[simp] theorem hostDue_BUSREC (s : State) : (hostDue s).BUSREC = s.BUSREC := (hostDue_sameControl s).BUSREC
@[simp] theorem hostDue_ALUREC (s : State) : (hostDue s).ALUREC = s.ALUREC := (hostDue_sameControl s).ALUREC
@[simp] theorem hostDue_cfg (s : State) : (hostDue s).cfg = s.cfg := (hostDue_sameControl s).cfg

/-- A host event keeps memory canonical. -/
theorem applyHost_memory_wf (e : HostEvent) (s : State) (h : Memory.wf s.M = true) :
    Memory.wf (applyHost e s).M = true := by
  cases e with
  | setReg X v => cases X <;> exact h
  | outputDrain => cases hf : s.FGO <;> simpa [applyHost, hostOutputDrain, hf] using h
  | input b => exact h
  | setMem a v => exact memWrite_wf a _ h
  | snapshot => exact h

theorem applyHostAll_memory_wf (es : List HostEvent) (s : State) (h : Memory.wf s.M = true) :
    Memory.wf (applyHostAll es s).M = true := by
  induction es generalizing s with
  | nil => exact h
  | cons e es ih => exact ih _ (applyHost_memory_wf e s h)

theorem hostDue_memory_wf (s : State) (h : Memory.wf s.M = true) : Memory.wf (hostDue s).M = true := by
  unfold hostDue
  split
  · exact h
  · exact applyHostAll_memory_wf _ _ h

/-- A host event leaves the schedule alone. -/
theorem applyHost_hostEvents (e : HostEvent) (s : State) : (applyHost e s).hostEvents = s.hostEvents := by
  cases e with
  | setReg X v => cases X <;> rfl
  | outputDrain => cases hf : s.FGO <;> simp [applyHost, hostOutputDrain, hf]
  | input b => rfl
  | setMem a v => rfl
  | snapshot => rfl

theorem applyHostAll_hostEvents (es : List HostEvent) (s : State) : (applyHostAll es s).hostEvents = s.hostEvents := by
  induction es generalizing s with
  | nil => rfl
  | cons e es ih => exact (ih _).trans (applyHost_hostEvents e s)

/-- A cycle consumes one member of the schedule. -/
theorem hostDue_hostEvents (s : State) : (hostDue s).hostEvents = s.hostEvents.tail := by
  cases h : s.hostEvents with
  | nil => simp [h]
  | cons es rest => rw [hostDue_cons h, applyHostAll_hostEvents]; rfl

/-! ## The fetch -/

@[simp] theorem fetch_cfg (s : State) : (fetch s).cfg = s.cfg := by
  simp [fetch, fetchT0, fetchT1, load_AR_PC, loadFromMemory_IR]

@[simp] theorem fetch_R (s : State) : (fetch s).R = s.R := by
  simp [fetch, fetchT0, fetchT1, load_AR_PC, loadFromMemory_IR]

@[simp] theorem fetch_S (s : State) : (fetch s).S = s.S := by
  simp [fetch, fetchT0, fetchT1, load_AR_PC, loadFromMemory_IR]

@[simp] theorem fetch_SC (s : State) : (fetch s).SC = .t2 := by
  simp [fetch, fetchT1]

/-! ## Running T-states -/

theorem runStates_done {micro : State → Result} {n : Nat} {s t : State}
    (h : micro (beginCycle (hostDue s)) = .next t) (hd : t.SC = .t0) : runStates micro (n + 1) s = .next t := by
  simp [runStates, h, hd]

theorem runStates_more {micro : State → Result} {n : Nat} {s t : State}
    (h : micro (beginCycle (hostDue s)) = .next t) (hd : t.SC ≠ .t0) :
    runStates micro (n + 1) s = runStates micro n t := by
  simp [runStates, h, hd]

/-- The instruction states in a running machine with no interrupt pending are those of `cycle`. -/
theorem tick_running {s : State} (hR : s.R = false) (hS : s.S = true) :
    tick s = instructionState (beginCycle (hostDue s)) := by
  simp [tick, cycle, hR, hS]

/-- The interrupt cycle's T-states are those of `cycle`. -/
theorem tick_interrupt {s : State} (hR : s.R = true) : tick s = interruptState (beginCycle (hostDue s)) := by
  simp [tick, cycle, hR]

/-- A halted machine's tick is what the host does. -/
theorem tick_halted {s : State} (hR : s.R = false) (hS : s.S = false) : tick s = .next (hostDue s) := by
  simp [tick, cycle, hR, hS]

/-! ## The interrupt cycle, T-state by T-state -/

theorem interruptRT0_eq (s : State) :
    interruptRT0 s =
      { s with
        TR := s.PC.setWidth 16
        AR := 0
        AC := if s.cfg.intClearsAC then 0 else s.AC
        SC := .t1
        BUSREC := some ⟨.PC, .TR, s.PC.setWidth 16⟩ } := by
  simp [interruptRT0, load_TR_PC]

theorem interruptRT1_eq (s : State) :
    interruptRT1 s =
      { s with
        M := memWrite s.M s.AR s.TR
        PC := 0
        SC := .t2
        MLATCH := s.TR
        BUSREC := some ⟨.TR, .MEM, s.TR⟩ } := rfl

/-- If the interrupt state answers a next state, it is RT0, RT1 or RT2. -/
theorem interruptState_cases {s t : State} (h : interruptState s = .next t) :
    s.SC = .t0 ∧ t = interruptRT0 s ∨ s.SC = .t1 ∧ t = interruptRT1 s ∨ s.SC = .t2 ∧ t = interruptRT2 s := by
  unfold interruptState at h
  split at h <;> simp_all

/-! ## The memory-reference T-states -/

/-- T3 leaves the effective address in AR (42_memory_reference.md R130). -/
theorem memRefT3_AR (s : State) : (memRefT3 s).AR = effectiveAddress s.I s.AR s.M := by
  cases h : s.I <;> simp [memRefT3, h, effectiveAddress, loadFromMemory_AR]

theorem memRefT3_SC (s : State) : (memRefT3 s).SC = nextSC s.SC := by
  cases h : s.I <;> simp [memRefT3, h, loadFromMemory_AR]

/-- T3 writes AR, SC and the Bus's latch and record, and nothing else. -/
theorem memRefT3_eq (s : State) :
    memRefT3 s =
      if s.I then
        { s with
          AR := addrField (memRead s.M s.AR)
          SC := nextSC s.SC
          MLATCH := memRead s.M s.AR
          BUSREC := some ⟨.MEM, .AR, memRead s.M s.AR⟩ }
      else { s with SC := nextSC s.SC } := by
  unfold memRefT3
  rw [loadFromMemory_AR]
  rfl

@[simp] theorem memRefT3_PC (s : State) : (memRefT3 s).PC = s.PC := by rw [memRefT3_eq]; split <;> rfl
@[simp] theorem memRefT3_DR (s : State) : (memRefT3 s).DR = s.DR := by rw [memRefT3_eq]; split <;> rfl
@[simp] theorem memRefT3_AC (s : State) : (memRefT3 s).AC = s.AC := by rw [memRefT3_eq]; split <;> rfl
@[simp] theorem memRefT3_IR (s : State) : (memRefT3 s).IR = s.IR := by rw [memRefT3_eq]; split <;> rfl
@[simp] theorem memRefT3_TR (s : State) : (memRefT3 s).TR = s.TR := by rw [memRefT3_eq]; split <;> rfl
@[simp] theorem memRefT3_OUTR (s : State) : (memRefT3 s).OUTR = s.OUTR := by rw [memRefT3_eq]; split <;> rfl
@[simp] theorem memRefT3_INPR (s : State) : (memRefT3 s).INPR = s.INPR := by rw [memRefT3_eq]; split <;> rfl
@[simp] theorem memRefT3_E (s : State) : (memRefT3 s).E = s.E := by rw [memRefT3_eq]; split <;> rfl
@[simp] theorem memRefT3_I (s : State) : (memRefT3 s).I = s.I := by rw [memRefT3_eq]; split <;> rfl
@[simp] theorem memRefT3_S (s : State) : (memRefT3 s).S = s.S := by rw [memRefT3_eq]; split <;> rfl
@[simp] theorem memRefT3_R (s : State) : (memRefT3 s).R = s.R := by rw [memRefT3_eq]; split <;> rfl
@[simp] theorem memRefT3_IEN (s : State) : (memRefT3 s).IEN = s.IEN := by rw [memRefT3_eq]; split <;> rfl
@[simp] theorem memRefT3_FGI (s : State) : (memRefT3 s).FGI = s.FGI := by rw [memRefT3_eq]; split <;> rfl
@[simp] theorem memRefT3_FGO (s : State) : (memRefT3 s).FGO = s.FGO := by rw [memRefT3_eq]; split <;> rfl
@[simp] theorem memRefT3_CUR (s : State) : (memRefT3 s).CUR = s.CUR := by rw [memRefT3_eq]; split <;> rfl
@[simp] theorem memRefT3_M (s : State) : (memRefT3 s).M = s.M := by rw [memRefT3_eq]; split <;> rfl
@[simp] theorem memRefT3_ALUREC (s : State) : (memRefT3 s).ALUREC = s.ALUREC := by rw [memRefT3_eq]; split <;> rfl
@[simp] theorem memRefT3_cfg (s : State) : (memRefT3 s).cfg = s.cfg := by rw [memRefT3_eq]; split <;> rfl
@[simp] theorem memRefT3_hostEvents (s : State) : (memRefT3 s).hostEvents = s.hostEvents := by rw [memRefT3_eq]; split <;> rfl
@[simp] theorem memRefT3_hostTook (s : State) : (memRefT3 s).hostTook = s.hostTook := by rw [memRefT3_eq]; split <;> rfl

theorem operandT4_eq (s : State) :
    operandT4 s =
      { s with
        DR := memRead s.M s.AR
        MLATCH := memRead s.M s.AR
        BUSREC := some ⟨.MEM, .DR, memRead s.M s.AR⟩
        SC := nextSC s.SC } := by
  simp [operandT4, advance, loadFromMemory_DR]

end Sys2Proof.Machine
end

