-- ==== Sys2Proof/Laws/Cycle.lean ====
section
/-! SUPPORT. Inversion: what a T-state, an instruction's execute state and a cycle can do when they answer a next state
(41_sequencer.md R110 to R118). Every law about all cycles cites these and unfolds nothing. -/

namespace Sys2Proof.Machine

/-! ## The execute states of each instruction -/

theorem andState_cases {s t : State} (h : andState s = .next t) :
    s.SC = .t3 ∧ t = memRefT3 s ∨
      s.SC = .t4 ∧ t = operandT4 s ∨
      s.SC = .t5 ∧ t = complete (aluToAC .AND (some .AC) (some .DR) s) := by
  unfold andState at h
  split at h <;> simp_all

theorem addState_cases {s t : State} (h : addState s = .next t) :
    s.SC = .t3 ∧ t = memRefT3 s ∨
      s.SC = .t4 ∧ t = operandT4 s ∨
      s.SC = .t5 ∧ t = complete (aluToAC .ADD (some .AC) (some .DR) s) := by
  unfold addState at h
  split at h <;> simp_all

theorem ldaState_cases {s t : State} (h : ldaState s = .next t) :
    s.SC = .t3 ∧ t = memRefT3 s ∨
      s.SC = .t4 ∧ t = operandT4 s ∨
      s.SC = .t5 ∧ t = complete (aluToAC .LDA (some .DR) none s) := by
  unfold ldaState at h
  split at h <;> simp_all

theorem staState_cases {s t : State} (h : staState s = .next t) :
    s.SC = .t3 ∧ t = memRefT3 s ∨
      s.SC = .t4 ∧ t = complete (storeToMemory .AC s) := by
  unfold staState at h
  split at h <;> simp_all

theorem bunState_cases {s t : State} (h : bunState s = .next t) :
    s.SC = .t3 ∧ t = memRefT3 s ∨
      s.SC = .t4 ∧ t = complete (load .PC .AR s) := by
  unfold bunState at h
  split at h <;> simp_all

theorem bsaState_cases {s t : State} (h : bsaState s = .next t) :
    s.SC = .t3 ∧ t = memRefT3 s ∨
      s.SC = .t4 ∧ t = advance { storeToMemory .PC s with AR := s.AR + 1 } ∨
      s.SC = .t5 ∧ t = complete (load .PC .AR s) := by
  unfold bsaState at h
  split at h <;> simp_all

theorem iszState_cases {s t : State} (h : iszState s = .next t) :
    s.SC = .t3 ∧ t = memRefT3 s ∨
      s.SC = .t4 ∧ t = operandT4 s ∨
      s.SC = .t5 ∧ t = advance { s with DR := s.DR + 1 } ∨
      s.SC = .t6 ∧ t = complete (skipIf (iszSkips s) (storeToMemory .DR s)) := by
  unfold iszState at h
  split at h <;> simp_all

theorem claState_cases {s t : State} (h : claState s = .next t) : s.SC = .t3 ∧ t = complete { s with AC := 0 } := by
  unfold claState at h
  split at h <;> simp_all

theorem cleState_cases {s t : State} (h : cleState s = .next t) : s.SC = .t3 ∧ t = complete { s with E := false } := by
  unfold cleState at h
  split at h <;> simp_all

theorem cmaState_cases {s t : State} (h : cmaState s = .next t) : s.SC = .t3 ∧ t = complete (aluToAC .CMA (some .AC) none s) := by
  unfold cmaState at h
  split at h <;> simp_all

theorem cmeState_cases {s t : State} (h : cmeState s = .next t) : s.SC = .t3 ∧ t = complete (aluToAC .CME none none s) := by
  unfold cmeState at h
  split at h <;> simp_all

theorem cirState_cases {s t : State} (h : cirState s = .next t) : s.SC = .t3 ∧ t = complete (aluToAC .CIR (some .AC) none s) := by
  unfold cirState at h
  split at h <;> simp_all

theorem cilState_cases {s t : State} (h : cilState s = .next t) : s.SC = .t3 ∧ t = complete (aluToAC .CIL (some .AC) none s) := by
  unfold cilState at h
  split at h <;> simp_all

theorem incState_cases {s t : State} (h : incState s = .next t) : s.SC = .t3 ∧ t = complete { s with AC := s.AC + 1 } := by
  unfold incState at h
  split at h <;> simp_all

theorem spaState_cases {s t : State} (h : spaState s = .next t) : s.SC = .t3 ∧ t = complete (skipIf (spaSkips s) s) := by
  unfold spaState at h
  split at h <;> simp_all

theorem snaState_cases {s t : State} (h : snaState s = .next t) : s.SC = .t3 ∧ t = complete (skipIf (snaSkips s) s) := by
  unfold snaState at h
  split at h <;> simp_all

theorem szaState_cases {s t : State} (h : szaState s = .next t) : s.SC = .t3 ∧ t = complete (skipIf (szaSkips s) s) := by
  unfold szaState at h
  split at h <;> simp_all

theorem szeState_cases {s t : State} (h : szeState s = .next t) : s.SC = .t3 ∧ t = complete (skipIf (szeSkips s) s) := by
  unfold szeState at h
  split at h <;> simp_all

theorem hltState_cases {s t : State} (h : hltState s = .next t) : s.SC = .t3 ∧ t = complete { s with S := false } := by
  unfold hltState at h
  split at h <;> simp_all

theorem inpState_cases {s t : State} (h : inpState s = .next t) : s.SC = .t3 ∧ t = complete { s with AC := inpValue s.cfg.inpKeepsACHigh s.AC s.INPR, FGI := false } := by
  unfold inpState at h
  split at h <;> simp_all

theorem outState_cases {s t : State} (h : outState s = .next t) : s.SC = .t3 ∧ t = complete { load .OUTR .AC s with FGO := false } := by
  unfold outState at h
  split at h <;> simp_all

theorem skiState_cases {s t : State} (h : skiState s = .next t) : s.SC = .t3 ∧ t = complete (skipIf (skiSkips s) s) := by
  unfold skiState at h
  split at h <;> simp_all

theorem skoState_cases {s t : State} (h : skoState s = .next t) : s.SC = .t3 ∧ t = complete (skipIf (skoSkips s) s) := by
  unfold skoState at h
  split at h <;> simp_all

theorem ionState_cases {s t : State} (h : ionState s = .next t) : s.SC = .t3 ∧ t = complete { s with IEN := true } := by
  unfold ionState at h
  split at h <;> simp_all

theorem iofState_cases {s t : State} (h : iofState s = .next t) : s.SC = .t3 ∧ t = complete { s with IEN := false } := by
  unfold iofState at h
  split at h <;> simp_all

theorem idleFrom_cases {s t : State} (h : idleFrom s = .next t) :
    s.SC = s.cfg.undefLastT ∧ t = complete s ∨ s.SC.toNat < s.cfg.undefLastT.toNat ∧ t = advance s := by
  unfold idleFrom at h
  split at h
  · simp_all
  · split at h <;> simp_all

theorem idleState_cases {s t : State} (h : idleState s = .next t) :
    3 ≤ s.SC.toNat ∧
      (s.SC = s.cfg.undefLastT ∧ t = complete s ∨ s.SC.toNat < s.cfg.undefLastT.toNat ∧ t = advance s) := by
  unfold idleState at h
  split at h <;> first | cases h | (next hc => exact ⟨by simp [hc, SC.toNat], idleFrom_cases h⟩)

/-! ## One cycle -/

/-- Every effect that T3 to T6 can have. -/
theorem executeState_cases {s t : State} (h : executeState s = .next t) :
    s.CUR = none ∧ idleState s = .next t ∨
      s.CUR = some .AND ∧ andState s = .next t ∨
      s.CUR = some .ADD ∧ addState s = .next t ∨
      s.CUR = some .LDA ∧ ldaState s = .next t ∨
      s.CUR = some .STA ∧ staState s = .next t ∨
      s.CUR = some .BUN ∧ bunState s = .next t ∨
      s.CUR = some .BSA ∧ bsaState s = .next t ∨
      s.CUR = some .ISZ ∧ iszState s = .next t ∨
      s.CUR = some .CLA ∧ claState s = .next t ∨
      s.CUR = some .CLE ∧ cleState s = .next t ∨
      s.CUR = some .CMA ∧ cmaState s = .next t ∨
      s.CUR = some .CME ∧ cmeState s = .next t ∨
      s.CUR = some .CIR ∧ cirState s = .next t ∨
      s.CUR = some .CIL ∧ cilState s = .next t ∨
      s.CUR = some .INC ∧ incState s = .next t ∨
      s.CUR = some .SPA ∧ spaState s = .next t ∨
      s.CUR = some .SNA ∧ snaState s = .next t ∨
      s.CUR = some .SZA ∧ szaState s = .next t ∨
      s.CUR = some .SZE ∧ szeState s = .next t ∨
      s.CUR = some .HLT ∧ hltState s = .next t ∨
      s.CUR = some .INP ∧ inpState s = .next t ∨
      s.CUR = some .OUT ∧ outState s = .next t ∨
      s.CUR = some .SKI ∧ skiState s = .next t ∨
      s.CUR = some .SKO ∧ skoState s = .next t ∨
      s.CUR = some .ION ∧ ionState s = .next t ∨
      s.CUR = some .IOF ∧ iofState s = .next t := by
  unfold executeState at h
  split at h <;> simp_all

theorem instructionState_cases {s t : State} (h : instructionState s = .next t) :
    s.SC = .t0 ∧ t = fetchT0 s ∨ s.SC = .t1 ∧ t = fetchT1 s ∨ s.SC = .t2 ∧ t = decodeT2 s ∨
      3 ≤ s.SC.toNat ∧ executeState s = .next t := by
  unfold instructionState at h
  split at h <;> simp_all [SC.toNat]

/-- R110: the three things a cycle can be. -/
theorem cycle_cases {s t : State} (h : cycle s = .next t) :
    s.R = true ∧ interruptState (beginCycle s) = .next t ∨
      s.R = false ∧ s.S = false ∧ t = s ∨
      s.R = false ∧ s.S = true ∧ instructionState (beginCycle s) = .next t := by
  unfold cycle at h
  cases hR : s.R <;> cases hS : s.S <;> simp_all

end Sys2Proof.Machine
end

