-- ==== Sys2Proof/Laws/PerInstr.lean ====
section
/-! SUPPORT. The per-instruction family FormatField: bits 14:12 of an instruction's word are 7 exactly for the format-X
instructions (30_encoding.md R61), in every legal opcode table. -/

namespace Sys2Proof.Laws.FormatField

/-- R61: "In every format-X pattern bits 14:12 are 0b111, the one value of the opcode field that format M does not use". -/
def Statement (i : Instr) : Prop :=
  ∀ t : OpcodeTable, t.wf = true → (opField (encode t i) = 7 ↔ i.isMemRef = false)

/-- A format-X instruction. -/
theorem formatX {i : Instr} (h : i.isMemRef = false) : Statement i := fun _ ht => ⟨fun _ => h, fun _ => opField_formatX ht h⟩

/-- A memory-reference instruction, whose op value is one of the table's seven. -/
theorem formatM {i : Instr} (h : i.isMemRef = true) (ho : ∀ t : OpcodeTable, opField (encode t i) ∈ t.ops) : Statement i :=
  fun t ht => ⟨fun e => absurd e ((mem_ops_iff ht _).1 (ho t)), fun e => by simp [h] at e⟩

theorem and (ind : Bool) (addr : Addr) : Statement (.and ind addr) :=
  formatM rfl fun t => by simp [encode, OpcodeTable.ops]

theorem add (ind : Bool) (addr : Addr) : Statement (.add ind addr) :=
  formatM rfl fun t => by simp [encode, OpcodeTable.ops]

theorem lda (ind : Bool) (addr : Addr) : Statement (.lda ind addr) :=
  formatM rfl fun t => by simp [encode, OpcodeTable.ops]

theorem sta (ind : Bool) (addr : Addr) : Statement (.sta ind addr) :=
  formatM rfl fun t => by simp [encode, OpcodeTable.ops]

theorem bun (ind : Bool) (addr : Addr) : Statement (.bun ind addr) :=
  formatM rfl fun t => by simp [encode, OpcodeTable.ops]

theorem bsa (ind : Bool) (addr : Addr) : Statement (.bsa ind addr) :=
  formatM rfl fun t => by simp [encode, OpcodeTable.ops]

theorem isz (ind : Bool) (addr : Addr) : Statement (.isz ind addr) :=
  formatM rfl fun t => by simp [encode, OpcodeTable.ops]

theorem cla : Statement .cla := formatX rfl

theorem cle : Statement .cle := formatX rfl

theorem cma : Statement .cma := formatX rfl

theorem cme : Statement .cme := formatX rfl

theorem cir : Statement .cir := formatX rfl

theorem cil : Statement .cil := formatX rfl

theorem inc : Statement .inc := formatX rfl

theorem spa : Statement .spa := formatX rfl

theorem sna : Statement .sna := formatX rfl

theorem sza : Statement .sza := formatX rfl

theorem sze : Statement .sze := formatX rfl

theorem hlt : Statement .hlt := formatX rfl

theorem inp : Statement .inp := formatX rfl

theorem out : Statement .out := formatX rfl

theorem ski : Statement .ski := formatX rfl

theorem sko : Statement .sko := formatX rfl

theorem ion : Statement .ion := formatX rfl

theorem iof : Statement .iof := formatX rfl

end Sys2Proof.Laws.FormatField
end

