-- ==== Sys2Proof/Tests/Slice0.lean ====
section
/-! SUPPORT. The model's own tests: smoke tests of the well-formedness check, words written out from the encodings of
30_encoding.md section 3, single steps with the numbers of 95_test_vectors.md (T, I, H and K are its vectors), and for every
statement with hypotheses a state that meets them. -/

namespace Sys2Proof.Machine.Tests

/-! ## Helpers -/

/-- `p` holds of the next state; false of a fault or a refusal. -/
def after (p : State → Bool) : Result → Bool
  | .next t => p t
  | .fault _ => false
  | .refused _ => false

/-- The start of vectors T1 to T62: reset with PC = 100. -/
def at100 : State := { State.reset with PC := 0x100 }

/-- One step from `s` with the word `w` at PC. -/
def stepOn (w : Nat) (s : State) : Result := step (s.withFetchWord 16 w)

/-- A running machine in T-state `n` of the instruction `c`. -/
def inState (c : Option Mnemonic) (n : SC) : State := { State.reset with CUR := c, SC := n }

/-- An interrupt cycle at its state `n`. -/
def inInterrupt (n : SC) : State := { State.reset with R := true, SC := n, PC := 0x013, IEN := true, FGI := true }

/-- Reset with other parameters. -/
def withConfig (c : Config) : State := { State.reset with cfg := c }

/-- A halted machine. -/
def halted : State := { State.reset with S := false }

/-! ## Well-formedness: ill-formed terms are refused -/

theorem test_undefLastT_0_refused : ({ defaultConfig with undefLastT := .t0 } : Config).wf = false := by decide
theorem test_undefLastT_1_refused : ({ defaultConfig with undefLastT := .t1 } : Config).wf = false := by decide
theorem test_undefLastT_2_refused : ({ defaultConfig with undefLastT := .t2 } : Config).wf = false := by decide
theorem test_undefLastT_3_accepted : ({ defaultConfig with undefLastT := .t3 } : Config).wf = true := by decide
theorem test_opc_same_op_refused : ({ defaultOpc with add := 0 } : OpcodeTable).wf = false := by decide +kernel
theorem test_opc_op_7_refused : ({ defaultOpc with isz := 7 } : OpcodeTable).wf = false := by decide +kernel
theorem test_opc_same_pattern_refused : ({ defaultOpc with iof := 0x7001 } : OpcodeTable).wf = false := by decide +kernel
theorem test_opc_pattern_without_7_refused : ({ defaultOpc with hlt := 0x6001 } : OpcodeTable).wf = false := by
  decide +kernel
theorem test_memory_unsorted_refused : Memory.wf [(0x011, 0x0001), (0x010, 0x0002)] = false := by decide
theorem test_memory_repeat_refused : Memory.wf [(0x010, 0x0001), (0x010, 0x0002)] = false := by decide
theorem test_memory_blank_refused : Memory.wf [(0x010, 0xFFFF)] = false := by decide
theorem test_memory_outside_refused : Memory.wf [(0x1000, 0x0001)] = false := by decide

/-! ## Decoding: one word per constructor, bits from R61 (i op addr) and the patterns of R65, R66 -/

/-- K2, R64: op 0. -/
theorem test_decode_and : decode defaultOpc 0b1000111111111111 = .ok (.and true 0xFFF) ∧ encode defaultOpc (.and true 0xFFF) = 0b1000111111111111 := by decide
/-- T3, R64: op 1. -/
theorem test_decode_add : decode defaultOpc 0b0001001000000000 = .ok (.add false 0x200) ∧ encode defaultOpc (.add false 0x200) = 0b0001001000000000 := by decide
/-- K3, R64: op 2. -/
theorem test_decode_lda : decode defaultOpc 0b0010000001100100 = .ok (.lda false 0x064) ∧ encode defaultOpc (.lda false 0x064) = 0b0010000001100100 := by decide
/-- T11, R64: op 3. -/
theorem test_decode_sta : decode defaultOpc 0b0011000100000001 = .ok (.sta false 0x101) ∧ encode defaultOpc (.sta false 0x101) = 0b0011000100000001 := by decide
/-- T13, R64: op 4. -/
theorem test_decode_bun : decode defaultOpc 0b1100001000000000 = .ok (.bun true 0x200) ∧ encode defaultOpc (.bun true 0x200) = 0b1100001000000000 := by decide
/-- T16, R64: op 5. -/
theorem test_decode_bsa : decode defaultOpc 0b0101111111111111 = .ok (.bsa false 0xFFF) ∧ encode defaultOpc (.bsa false 0xFFF) = 0b0101111111111111 := by decide
/-- K4, R64: op 6. -/
theorem test_decode_isz : decode defaultOpc 0b1110000100100011 = .ok (.isz true 0x123) ∧ encode defaultOpc (.isz true 0x123) = 0b1110000100100011 := by decide
/-- R65: bit 11. -/
theorem test_decode_cla : decode defaultOpc 0b0111100000000000 = .ok (.cla) ∧ encode defaultOpc (.cla) = 0b0111100000000000 := by decide
/-- R65: bit 10. -/
theorem test_decode_cle : decode defaultOpc 0b0111010000000000 = .ok (.cle) ∧ encode defaultOpc (.cle) = 0b0111010000000000 := by decide
/-- R65: bit 9. -/
theorem test_decode_cma : decode defaultOpc 0b0111001000000000 = .ok (.cma) ∧ encode defaultOpc (.cma) = 0b0111001000000000 := by decide
/-- R65: bit 8. -/
theorem test_decode_cme : decode defaultOpc 0b0111000100000000 = .ok (.cme) ∧ encode defaultOpc (.cme) = 0b0111000100000000 := by decide
/-- R65: bit 7. -/
theorem test_decode_cir : decode defaultOpc 0b0111000010000000 = .ok (.cir) ∧ encode defaultOpc (.cir) = 0b0111000010000000 := by decide
/-- R65: bit 6. -/
theorem test_decode_cil : decode defaultOpc 0b0111000001000000 = .ok (.cil) ∧ encode defaultOpc (.cil) = 0b0111000001000000 := by decide
/-- R65: bit 5. -/
theorem test_decode_inc : decode defaultOpc 0b0111000000100000 = .ok (.inc) ∧ encode defaultOpc (.inc) = 0b0111000000100000 := by decide
/-- R65: bit 4. -/
theorem test_decode_spa : decode defaultOpc 0b0111000000010000 = .ok (.spa) ∧ encode defaultOpc (.spa) = 0b0111000000010000 := by decide
/-- R65: bit 3. -/
theorem test_decode_sna : decode defaultOpc 0b0111000000001000 = .ok (.sna) ∧ encode defaultOpc (.sna) = 0b0111000000001000 := by decide
/-- R65: bit 2. -/
theorem test_decode_sza : decode defaultOpc 0b0111000000000100 = .ok (.sza) ∧ encode defaultOpc (.sza) = 0b0111000000000100 := by decide
/-- R65: bit 1. -/
theorem test_decode_sze : decode defaultOpc 0b0111000000000010 = .ok (.sze) ∧ encode defaultOpc (.sze) = 0b0111000000000010 := by decide
/-- R65: bit 0. -/
theorem test_decode_hlt : decode defaultOpc 0b0111000000000001 = .ok (.hlt) ∧ encode defaultOpc (.hlt) = 0b0111000000000001 := by decide
/-- R66: bit 11. -/
theorem test_decode_inp : decode defaultOpc 0b1111100000000000 = .ok (.inp) ∧ encode defaultOpc (.inp) = 0b1111100000000000 := by decide
/-- R66: bit 10. -/
theorem test_decode_out : decode defaultOpc 0b1111010000000000 = .ok (.out) ∧ encode defaultOpc (.out) = 0b1111010000000000 := by decide
/-- R66: bit 9. -/
theorem test_decode_ski : decode defaultOpc 0b1111001000000000 = .ok (.ski) ∧ encode defaultOpc (.ski) = 0b1111001000000000 := by decide
/-- R66: bit 8. -/
theorem test_decode_sko : decode defaultOpc 0b1111000100000000 = .ok (.sko) ∧ encode defaultOpc (.sko) = 0b1111000100000000 := by decide
/-- R66: bit 7. -/
theorem test_decode_ion : decode defaultOpc 0b1111000010000000 = .ok (.ion) ∧ encode defaultOpc (.ion) = 0b1111000010000000 := by decide
/-- R66: bit 6. -/
theorem test_decode_iof : decode defaultOpc 0b1111000001000000 = .ok (.iof) ∧ encode defaultOpc (.iof) = 0b1111000001000000 := by decide
/-- R67: two pattern bits at once (K8), an IO pattern's missing bit (K12), the sentinel (K13). -/
theorem test_decode_undecodable :
    decode defaultOpc 0x7003 = .error .notFound ∧ decode defaultOpc 0xF020 = .error .notFound ∧ decode defaultOpc 0xFFFF = .error .notFound := by decide
/-- R5: another legal table (HLT and IOF exchanged, AND and ISZ exchanged) decodes and encodes by its own entries. -/
def otherOpc : OpcodeTable := { defaultOpc with and := 6, isz := 0, hlt := 0xF040, iof := 0x7001 }
theorem test_other_opc :
    otherOpc.wf = true ∧ decode otherOpc 0x6200 = .ok (.and false 0x200) ∧ decode otherOpc 0xF040 = .ok .hlt ∧
      decode otherOpc 0x7001 = .ok .iof ∧ encode otherOpc (.isz true 0x123) = 0x8123 := by decide +kernel
/-- R69; that lower case finds nothing is the model's choice (assumption log 32). -/
theorem test_fromMnemonic :
    (fromMnemonic defaultOpc "LDA").map (·.pattern) = some 0x2000 ∧ fromMnemonic defaultOpc "lda" = none := by decide +kernel
/-- The table gives a row 16 bits; fewer bits leave the high ones 0. -/
theorem test_decodeTableWord :
    decodeTableWord 16 0x7001 = some .hlt ∧ decodeTableWord 8 0x7001 = some (.and false 0x001) ∧
      decodeTableWord 24 0x007001 = none := by decide
/-- R62: `is_indirect` needs a memory-reference word. -/
theorem test_isIndirect : isIndirect defaultOpc 0xA064 = true ∧ isIndirect defaultOpc 0x2064 = false ∧ isIndirect defaultOpc 0xF800 = false := by decide

/-! ## Single steps -/

/-- T1. -/
theorem test_and_direct :
    after (fun t => t.AC == 0x0C0C && t.DR == 0x0F0F && t.PC == 0x101 && t.E)
      (stepOn 0x0200 { at100 with AC := 0x3C3C, E := true, M := [(0x200, 0x0F0F)] }) = true := by decide
/-- T2. -/
theorem test_and_indirect :
    after (fun t => t.AC == 0x00CD && t.AR == 0x300 && memRead t.M 0x200 == 0xF300)
      (stepOn 0x8200 { at100 with AC := 0xABCD, M := [(0x200, 0xF300), (0x300, 0x00FF)] }) = true := by decide
/-- T4. -/
theorem test_add_carry :
    after (fun t => t.AC == 0 && t.E)
      (stepOn 0x1200 { at100 with AC := 0xFFFF, M := [(0x200, 0x0001)] }) = true := by decide
/-- T6. -/
theorem test_add_signed_overflow :
    after (fun t => t.AC == 0x8000 && !t.E)
      (stepOn 0x1200 { at100 with AC := 0x7FFF, E := true, M := [(0x200, 0x0001)] }) = true := by decide
/-- T8. -/
theorem test_lda_indirect :
    after (fun t => t.AC == 0x00AA && t.AR == 0x123 && t.DR == 0x00AA && t.I)
      (stepOn 0xA064 { at100 with AC := 0x1111, M := [(0x064, 0x5123), (0x123, 0x00AA)] }) = true := by decide
/-- T9. -/
theorem test_lda_itself :
    after (fun t => t.AC == 0x2100 && t.PC == 0x101)
      (stepOn 0x2100 at100) = true := by decide
/-- T10. -/
theorem test_sta :
    after (fun t => memRead t.M 0x200 == 0xCAFE && t.DR == 0x0007 && t.PC == 0x101)
      (stepOn 0x3200 { at100 with AC := 0xCAFE, DR := 0x0007, M := [(0x200, 0x1234)] }) = true := by decide
/-- T13. -/
theorem test_bun_indirect :
    after (fun t => t.PC == 0x123 && t.AR == 0x123)
      (stepOn 0xC200 { at100 with M := [(0x200, 0xF123)] }) = true := by decide
/-- T15. -/
theorem test_bsa :
    after (fun t => memRead t.M 0x200 == 0x0101 && t.PC == 0x201 && t.AR == 0x201)
      (stepOn 0x5200 { at100 with M := [(0x200, 0x0000)] }) = true := by decide
/-- T16. -/
theorem test_bsa_wraps :
    after (fun t => memRead t.M 0xFFF == 0x0101 && t.PC == 0 && t.AR == 0)
      (stepOn 0x5FFF at100) = true := by decide
/-- T19. -/
theorem test_isz_skip :
    after (fun t => memRead t.M 0x010 == 0x0000 && t.DR == 0 && t.PC == 0x102)
      (stepOn 0x6010 { at100 with M := [] }) = true := by decide
/-- T20. -/
theorem test_isz_no_skip :
    after (fun t => memRead t.M 0x010 == 0xFFFF && t.PC == 0x101 && t.M == [(0x100, 0x6010)])
      (stepOn 0x6010 { at100 with M := [(0x010, 0xFFFE)] }) = true := by decide
/-- T23. -/
theorem test_cla :
    after (fun t => t.AC == 0 && t.E && t.AR == 0x800)
      (stepOn 0x7800 { at100 with AC := 0xFFFF, E := true }) = true := by decide
/-- T24. -/
theorem test_cle :
    after (fun t => !t.E && t.AC == 0x1234)
      (stepOn 0x7400 { at100 with AC := 0x1234, E := true }) = true := by decide
/-- T25. -/
theorem test_cma :
    after (fun t => t.AC == 0xFF00 && t.E)
      (stepOn 0x7200 { at100 with AC := 0x00FF, E := true }) = true := by decide
/-- T27. -/
theorem test_cme :
    after (fun t => t.E && t.AC == 0)
      (stepOn 0x7100 at100) = true := by decide
/-- T30. -/
theorem test_cir :
    after (fun t => t.AC == 0xC000 && !t.E)
      (stepOn 0x7080 { at100 with AC := 0x8000, E := true }) = true := by decide
/-- T32. -/
theorem test_cil :
    after (fun t => t.AC == 0x8003 && !t.E)
      (stepOn 0x7040 { at100 with AC := 0x4001, E := true }) = true := by decide
/-- T33. -/
theorem test_inc_wraps :
    after (fun t => t.AC == 0 && !t.E)
      (stepOn 0x7020 { at100 with AC := 0xFFFF }) = true := by decide
/-- T36. -/
theorem test_spa_zero :
    after (fun t => t.PC == 0x102)
      (stepOn 0x7010 at100) = true := by decide
/-- T37. -/
theorem test_spa_negative :
    after (fun t => t.PC == 0x101)
      (stepOn 0x7010 { at100 with AC := 0x8000 }) = true := by decide
/-- T38. -/
theorem test_sna_negative :
    after (fun t => t.PC == 0x102)
      (stepOn 0x7008 { at100 with AC := 0x8000 }) = true := by decide
/-- T39. -/
theorem test_sna_positive :
    after (fun t => t.PC == 0x101)
      (stepOn 0x7008 { at100 with AC := 0x7FFF }) = true := by decide
/-- T40. -/
theorem test_sza_zero :
    after (fun t => t.PC == 0x102)
      (stepOn 0x7004 at100) = true := by decide
/-- T41. -/
theorem test_sza_one :
    after (fun t => t.PC == 0x101)
      (stepOn 0x7004 { at100 with AC := 0x0001 }) = true := by decide
/-- T42. -/
theorem test_sze_clear :
    after (fun t => t.PC == 0x102)
      (stepOn 0x7002 at100) = true := by decide
/-- T43. -/
theorem test_sze_set :
    after (fun t => t.PC == 0x101)
      (stepOn 0x7002 { at100 with E := true }) = true := by decide
/-- T44. -/
theorem test_hlt :
    after (fun t => !t.S && t.PC == 0x101 && t.AR == 0x001 && after (fun u => u == t) (step t))
      (stepOn 0x7001 { at100 with AC := 0x0005 }) = true := by decide
/-- T46. -/
theorem test_inp :
    after (fun t => t.AC == 0x0041 && !t.FGI && t.INPR == 0x41)
      (stepOn 0xF800 { at100 with AC := 0xABCD, INPR := 0x41, FGI := true }) = true := by decide
/-- T46 with INP_KEEPS_AC_HIGH. -/
theorem test_inp_keeps_high :
    after (fun t => t.AC == 0xAB41 && !t.FGI)
      (stepOn 0xF800 { at100 with AC := 0xABCD, INPR := 0x41, FGI := true, cfg := { defaultConfig with inpKeepsACHigh := true } }) = true := by decide
/-- T47. -/
theorem test_out :
    after (fun t => t.OUTR == 0x42 && !t.FGO && t.AC == 0x1242)
      (stepOn 0xF400 { at100 with AC := 0x1242, FGO := true }) = true := by decide
/-- T56. -/
theorem test_out_still_requests :
    after (fun t => t.OUTR == 0x01 && !t.FGO && t.R)
      (stepOn 0xF400 { at100 with IEN := true, FGO := true, FGI := true, AC := 0x0001 }) = true := by decide
/-- T48. -/
theorem test_ski_set :
    after (fun t => t.PC == 0x102 && t.FGI)
      (stepOn 0xF200 { at100 with FGI := true }) = true := by decide
/-- T49. -/
theorem test_ski_clear :
    after (fun t => t.PC == 0x101)
      (stepOn 0xF200 at100) = true := by decide
/-- T50. -/
theorem test_sko_set :
    after (fun t => t.PC == 0x102 && t.FGO)
      (stepOn 0xF100 { at100 with FGO := true }) = true := by decide
/-- T51. -/
theorem test_sko_clear :
    after (fun t => t.PC == 0x101)
      (stepOn 0xF100 at100) = true := by decide
/-- T53. -/
theorem test_ion_with_request :
    after (fun t => t.IEN && t.R && t.PC == 0x101)
      (stepOn 0xF080 { at100 with FGI := true }) = true := by decide
/-- T54. -/
theorem test_iof_with_request :
    after (fun t => !t.IEN && !t.R)
      (stepOn 0xF040 { at100 with IEN := true, FGO := true }) = true := by decide
/-- T57. -/
theorem test_undecodable :
    after (fun t => t.PC == 0x101 && t.AR == 0xFFF && t.I && t.CUR == none && t.R && t.M == [])
      (stepOn 0xFFFF { at100 with IEN := true, FGI := true }) = true := by decide
/-- T45: SPA at PC = FFF, the skip wraps past the top of memory. -/
theorem test_spa_at_top : after (fun t => t.PC == 0x001) (stepOn 0x7010 { State.reset with PC := 0xFFF }) = true := by decide
/-- T17: the return address wraps. -/
theorem test_bsa_at_top :
    after (fun t => memRead t.M 0x200 == 0 && t.PC == 0x201) (stepOn 0x5200 { State.reset with PC := 0xFFF }) = true := by
  decide
/-- X4: ISZ takes seven cycles, a direct LDA six, CLA four; an undecodable word seven, or four with UNDEF_LAST_T = 3 (T62). -/
theorem test_cycle_counts :
    ticksToBoundary 7 (at100.withFetchWord 16 0x6010) = some 7 ∧ ticksToBoundary 7 (at100.withFetchWord 16 0x2064) = some 6 ∧
      ticksToBoundary 7 (at100.withFetchWord 16 0x7800) = some 4 ∧ ticksToBoundary 7 at100 = some 7 ∧
      ticksToBoundary 7 { at100 with cfg := { defaultConfig with undefLastT := .t3 } } = some 4 := by decide
/-- I1: the interrupt cycle as one step. -/
theorem test_interrupt :
    after (fun t => t.TR == 0x0013 && memRead t.M 0 == 0x0013 && t.PC == 1 && t.AR == 0 && t.AC == 0x1234 && t.E && t.FGI &&
        !t.IEN && !t.R)
      (step { inInterrupt .t0 with AR := 0x004, AC := 0x1234, E := true, M := [(0, 0x4010)] }) = true := by decide
/-- I1 with INT_CLEARS_AC. -/
theorem test_interrupt_clears_AC :
    after (fun t => t.AC == 0 && t.AR == 0)
      (step { inInterrupt .t0 with AC := 0x1234, cfg := { defaultConfig with intClearsAC := true } }) = true := by decide
/-- H1 and a negative integer. -/
theorem test_hostInput :
    (hostInput 0x141 State.reset).INPR = 0x41 ∧ (hostInput (-1) State.reset).INPR = 0xFF ∧
      (hostInput 0x141 State.reset).FGI = true := by decide
/-- H3, H4. -/
theorem test_drain :
    (hostOutputDrain { State.reset with OUTR := 0x42 }).1 = some 0x42 ∧
      (hostOutputDrain { State.reset with OUTR := 0x42, FGO := true }).1 = none := by decide
/-- H5, H6. -/
theorem test_hostSet :
    (hostSetReg .PC 0x1ABC State.reset).PC = 0xABC ∧ memRead (hostSetMem 0x010 0x12345 State.reset).M 0x010 = 0x2345 := by
  decide
/-- H7: the host moves AR between T3 and T4 of LDA 064 (members 0 to 4 of the schedule precede T0 to T4). -/
theorem test_host_moves_AR :
    after (fun t => t.DR == 0x0007 && t.AC == 0x0007)
      (step { at100.withFetchWord 16 0x2064 with
        M := [(0x064, 0xBEEF), (0x065, 0x0007), (0x100, 0x2064)]
        hostEvents := [[], [], [], [], [.setReg .AR 0x065]] }) = true := by decide
/-- The first program of the spec, P1, to its end: two steps. -/
theorem test_P1 :
    after (fun t => t.AC == 0x0005 && t.PC == 0x002 && !t.S && t.CUR == some .HLT && t.DR == 0x0005)
      (Host.Core.run core 2 (construct defaultConfig [(0x000, 0x2010), (0x001, 0x7001), (0x010, 0x0005)])) = true := by decide

/-- R5: a machine with another opcode table and another RESET (PC = 002, FGO = 1). -/
theorem test_other_config :
    after (fun t => !t.S && t.PC == 0x003 && t.FGO && t.AR == 0x040 && t.CUR == some .HLT)
      (step (construct { defaultConfig with opc := otherOpc, reset := { defaultReset with PC := 0x002, FGO := true } }
        [(0x002, 0xF040)])) = true := by decide

/-! ## Witnesses: each statement's hypotheses are met, clause by clause -/

theorem witness_DecodeOfEncodeIsInstruction :
    defaultOpc.wf = true ∧ otherOpc.wf = true := by decide +kernel
theorem witness_EncodeOfDecodeIsWord :
    decode defaultOpc 0xFFF = .ok (.and false 0xFFF) ∧ decode defaultOpc 0xF040 = .ok .iof := by decide
theorem witness_UndecodableWordsExactly :
    defaultOpc.wf = true ∧ decode defaultOpc 0xF000 = .error .notFound := by decide +kernel
theorem witness_InstructionTableLookupsAgree :
    defaultOpc.wf = true ∧ 0 < (instructionTable defaultOpc).length := by decide +kernel
theorem witness_CanonicalMemoriesThatReadAlikeAreEqual :
    ∃ m n : Memory, Memory.wf m = true ∧ Memory.wf n = true ∧ (∀ a : Addr, memRead m a = memRead n a) :=
  ⟨[(0, 5), (0xFFF, 7)], [(0, 5), (0xFFF, 7)], by decide, by decide, fun _ => rfl⟩
theorem witness_FetchAndDecodeCycles :
    (∀ n ∈ [SC.t0, SC.t1, SC.t2], (inState none n).R = false ∧ (inState none n).S = true ∧ (inState none n).SC = n) := by decide
theorem witness_FormatXExecuteStates :
    ∀ c ∈ [Mnemonic.CLA, .CLE, .CMA, .CME, .CIR, .CIL, .INC, .SPA, .SNA, .SZA, .SZE, .HLT, .INP, .OUT, .SKI, .SKO, .ION, .IOF],
      (inState (some c) .t3).R = false ∧ (inState (some c) .t3).S = true ∧ (inState (some c) .t3).SC = .t3 ∧
        (inState (some c) .t3).CUR = some c := by decide
theorem witness_ThreeWayBranchAtT3 :
    (let s := inState (some .OUT) .t3; s.R = false ∧ s.S = true ∧ s.SC = .t3 ∧ Instr.out.isMemRef = false ∧
        s.CUR = some (mnemonicOf .out)) ∧
      (let s := { inState (some .ISZ) .t3 with I := true }; s.R = false ∧ s.S = true ∧ s.SC = .t3 ∧ s.I = true ∧
        s.CUR ∈ [some .AND, some .ADD, some .LDA, some .STA, some .BUN, some .BSA, some .ISZ]) ∧
      (let s := inState (some .AND) .t3; s.R = false ∧ s.S = true ∧ s.SC = .t3 ∧ s.I = false ∧
        s.CUR ∈ [some .AND, some .ADD, some .LDA, some .STA, some .BUN, some .BSA, some .ISZ]) ∧
      (let s := inState none .t3; s.R = false ∧ s.S = true ∧ s.SC = .t3 ∧ s.CUR = none ∧
        (s.cfg.undefLastT = .t4 ∨ s.cfg.undefLastT = .t5 ∨ s.cfg.undefLastT = .t6)) ∧
      (let s := { inState none .t3 with cfg := { defaultConfig with undefLastT := .t3 } }; s.R = false ∧ s.S = true ∧
        s.SC = .t3 ∧ s.CUR = none ∧ s.cfg.undefLastT = .t3) := by decide
theorem witness_MemoryReferenceExecuteStates :
    (inState (some .ISZ) .t4).R = false ∧ (inState (some .ISZ) .t4).S = true ∧
      (inState (some .ISZ) .t4).CUR ∈ [some .AND, some .ADD, some .LDA, some .ISZ] ∧
      (∀ p ∈ [(Mnemonic.ISZ, SC.t4), (.AND, .t5), (.ADD, .t5), (.LDA, .t5), (.STA, .t4), (.BUN, .t4), (.BSA, .t4), (.BSA, .t5),
        (.ISZ, .t5), (.ISZ, .t6)],
        (inState (some p.1) p.2).R = false ∧ (inState (some p.1) p.2).S = true ∧ (inState (some p.1) p.2).SC = p.2 ∧
          (inState (some p.1) p.2).CUR = some p.1) := by decide
theorem witness_HaltedCycleChangesNothing :
    halted.R = false ∧ halted.S = false := by decide
theorem witness_CompletionRecomputesR :
    ∃ s t, cycle s = .next t ∧ s.R = false ∧ s.S = true ∧ s.cfg.wf = true ∧ s.SC = lastSC s.cfg s.CUR ∧ t.SC = .t0 ∧ t.R = true :=
  ⟨{ inState (some .CLA) .t3 with IEN := true, FGO := true }, _, rfl, rfl, rfl, rfl, rfl, rfl, rfl⟩
theorem witness_CyclesPerInstruction :
    (let s := State.reset.withFetchWord 16 0x6010; s.R = false ∧ s.S = true ∧ s.SC = .t0 ∧ s.hostEvents = [] ∧
        decode s.cfg.opc (memRead s.M s.PC) = .ok (.isz false 0x010)) ∧
      (let s := State.reset; s.R = false ∧ s.S = true ∧ s.SC = .t0 ∧ s.hostEvents = [] ∧ decode s.cfg.opc (memRead s.M s.PC) = .error .notFound ∧ s.cfg.wf = true) := by decide
theorem witness_StepRunsDecodedInstruction :
    (let s := State.reset.withFetchWord 16 0xA064; s.R = false ∧ s.S = true ∧ s.SC = .t0 ∧ s.hostEvents = [] ∧
        decode s.cfg.opc (fetch s).IR = .ok (.lda true 0x064)) ∧
      (let s := { State.reset with hostEvents := [[.setMem 0 0x7800]] }; s.R = false ∧ s.S = true ∧ s.SC = .t0 ∧
        decode s.cfg.opc (fetch s).IR = .ok .cla) := by decide
theorem witness_StepOnUndecodableWordOnlyAdvancesPC :
    (let s := at100; s.R = false ∧ s.S = true ∧ s.SC = .t0 ∧ s.hostEvents = [] ∧ s.cfg.wf = true ∧
        decode s.cfg.opc (memRead s.M s.PC) = .error .notFound) := by decide
/-- For AndResult to InterruptEnableResults, whose only premises are a quiet host and the parameter of INP. -/
theorem witness_instruction_results :
    State.reset.hostEvents = [] ∧ State.reset.cfg.inpKeepsACHigh = false ∧
      (withConfig { defaultConfig with inpKeepsACHigh := true }).hostEvents = [] ∧
      (withConfig { defaultConfig with inpKeepsACHigh := true }).cfg.inpKeepsACHigh = true := by decide
theorem witness_FrameOfStoringInstructions :
    State.reset.hostEvents = [] ∧ (∃ t, exec (.sta false 0x200) State.reset = .next t) ∧
      (∃ t, exec (.bsa true 0x200) State.reset = .next t) ∧ (∃ t, exec (.isz false 0x200) State.reset = .next t) :=
  ⟨rfl, ⟨_, rfl⟩, ⟨_, rfl⟩, ⟨_, rfl⟩⟩
theorem witness_FrameOfLoadingInstructionsAndBun :
    State.reset.hostEvents = [] ∧ (∃ t, exec (.and false 0x200) State.reset = .next t) ∧
      (∃ t, exec (.add true 0x200) State.reset = .next t) ∧ (∃ t, exec (.lda true 0x200) State.reset = .next t) ∧
      (∃ t, exec (.bun true 0x200) State.reset = .next t) :=
  ⟨rfl, ⟨_, rfl⟩, ⟨_, rfl⟩, ⟨_, rfl⟩, ⟨_, rfl⟩⟩
theorem witness_FrameOfFormatXInstructions :
    State.reset.hostEvents = [] ∧
      ∀ i ∈ [Instr.cla, .cle, .cma, .cme, .cir, .cil, .inc, .spa, .sna, .sza, .sze, .hlt, .inp, .out, .ski, .sko, .ion, .iof],
        i.isMemRef = false ∧ after (fun _ => true) (exec i State.reset) = true := by
  decide
/-- For InterruptSaveCycles, InterruptLastCycle, InterruptEntryAsAWhole and BranchThroughCellZeroReturnsFromInterrupt. -/
theorem witness_interrupt_cycles :
    (∀ n ∈ [SC.t0, SC.t1, SC.t2], (inInterrupt n).R = true ∧ (inInterrupt n).SC = n) ∧ (inInterrupt .t0).hostEvents = [] ∧
      (inInterrupt .t0).cfg.intClearsAC = false ∧ Memory.wf (inInterrupt .t0).M = true := by decide
theorem witness_HaltWithRequestTakesInterruptAndStaysHalted :
    (let s := { State.reset with IEN := true, FGI := true }; s.hostEvents = [] ∧ s.IEN = true ∧ (s.FGI = true ∨ s.FGO = true)) ∧
      (let s := { State.reset with IEN := true, FGO := true }; s.hostEvents = [] ∧ s.IEN = true ∧ (s.FGI = true ∨ s.FGO = true)) := by decide
theorem witness_HostEventEffects :
    State.reset.FGO = false ∧ ({ State.reset with FGO := true } : State).FGO = true ∧
      (Reg.TR ≠ .OUTR ∧ Reg.TR ≠ .INPR ∧ Reg.TR ≠ .AR ∧ Reg.TR ≠ .PC) ∧ Memory.wf State.reset.M = true ∧ (1 : Addr) ≠ 0 := by decide
theorem witness_HostMovesAndDeviceFlagWriters :
    (HostEvent.snapshot ≠ .outputDrain ∧ ∀ b, HostEvent.snapshot ≠ .input b) ∧
      (∃ t, cycle { inState (some .OUT) .t3 with FGO := true } = .next t ∧ t.FGO ≠ true) ∧
      (∃ t, cycle { inState (some .INP) .t3 with FGI := true } = .next t ∧ t.FGI ≠ true) :=
  ⟨⟨by decide, fun _ => by simp⟩, ⟨_, rfl, by decide⟩, ⟨_, rfl, by decide⟩⟩
/-- A schedule is a field of its own, so every premise about it is met by the reset state with that schedule; the pointer cell
010 holds 020 for the indirect forms. -/
theorem witness_HostEditsOfTheOperandCell :
    let s : State := { State.reset with M := [(0x010, 0x0020)] }
    Memory.wf s.M = true ∧ effectiveAddress false 0x010 s.M = 0x010 ∧ effectiveAddress true 0x010 s.M = 0x020 ∧
      (∀ ind, ∃ t : State, t.M = s.M ∧ t.hostEvents = [[], [], [.setMem (effectiveAddress ind 0x010 t.M) 5]]) ∧
      (∀ ind, ∃ t : State, t.M = s.M ∧ t.hostEvents = [[], [.setMem (effectiveAddress ind 0x010 t.M) 5]]) ∧
      (∀ ind, ∃ t : State, t.M = s.M ∧ t.hostEvents = [[], [], [], [.setMem (effectiveAddress ind 0x010 t.M) 5]]) ∧
      (∃ t : State, t.M = s.M ∧ t.hostEvents = [[.setMem 0x010 5]]) :=
  ⟨by decide, by decide, by decide,
    fun ind => ⟨{ State.reset with
      M := [(0x010, 0x0020)], hostEvents := [[], [], [.setMem (effectiveAddress ind 0x010 [(0x010, 0x0020)]) 5]] }, rfl, rfl⟩,
    fun ind => ⟨{ State.reset with
      M := [(0x010, 0x0020)], hostEvents := [[], [.setMem (effectiveAddress ind 0x010 [(0x010, 0x0020)]) 5]] }, rfl, rfl⟩,
    fun ind => ⟨{ State.reset with
      M := [(0x010, 0x0020)], hostEvents := [[], [], [], [.setMem (effectiveAddress ind 0x010 [(0x010, 0x0020)]) 5]] },
      rfl, rfl⟩,
    ⟨{ State.reset with M := [(0x010, 0x0020)], hostEvents := [[.setMem 0x010 5]] }, rfl, rfl⟩⟩
/-- The reset state with a schedule: at a boundary, running, memory canonical. -/
theorem witness_HostEventsInsideAnInstruction :
    (∀ l ∈ [[[], [HostEvent.setReg .AR 0x1065]], [[HostEvent.input 0x41]], [[], [], [HostEvent.input (-1)]],
        [[], [], [HostEvent.setReg .IR 0x7800]], [[HostEvent.setMem 0 0x7800]], [[], [HostEvent.setMem 0 0x7800]],
        [[], [], [HostEvent.setMem 0 0x7800]]],
      ({ State.reset with hostEvents := l } : State).hostEvents = l ∧
        ({ State.reset with hostEvents := l } : State).R = false ∧ ({ State.reset with hostEvents := l } : State).S = true ∧
        ({ State.reset with hostEvents := l } : State).SC = .t0 ∧ Memory.wf ({ State.reset with hostEvents := l } : State).M) ∧
      State.reset.PC = 0 ∧ decode State.reset.cfg.opc (BitVec.ofNat 16 0x7800) = .ok .cla ∧ Instr.cla ≠ .inp := by
  refine ⟨fun l _ => ⟨rfl, rfl, rfl, rfl, rfl⟩, ?_, ?_, ?_⟩ <;> decide
/-- For WritersOfRegisters, WritersOfFlags and CyclesWriteMemoryOnlyAtAR, one cycle per clause. -/
theorem witness_writers_by_cycles :
    (∃ t, cycle (inInterrupt .t0) = .next t ∧ t.TR ≠ (inInterrupt .t0).TR) ∧
      (∃ t, cycle (inState none .t1) = .next t ∧ t.IR ≠ (inState none .t1).IR) ∧
      (∃ t, cycle { inState (some .OUT) .t3 with AC := 5 } = .next t ∧ t.OUTR ≠ 0) ∧
      (∃ t, cycle { inState none .t2 with IR := 0xF800 } = .next t ∧ t.I ≠ false ∧ t.CUR ≠ none) ∧
      (∃ t, cycle (inState (some .HLT) .t3) = .next t ∧ t.S ≠ true) ∧
      (∃ t, cycle (inState (some .ION) .t3) = .next t ∧ t.IEN ≠ false) ∧
      (∃ t, cycle (inInterrupt .t2) = .next t ∧ t.IEN ≠ true) ∧
      (∃ t, cycle (inState (some .CME) .t3) = .next t ∧ t.E ≠ false) ∧
      (∃ t, cycle (inState (some .STA) .t4) = .next t ∧ t.M ≠ []) ∧
      (∃ t, cycle (inInterrupt .t1) = .next t ∧ t.M ≠ []) := by
  refine ⟨⟨_, rfl, ?_⟩, ⟨_, rfl, ?_⟩, ⟨_, rfl, ?_⟩, ⟨_, rfl, ?_⟩, ⟨_, rfl, ?_⟩, ⟨_, rfl, ?_⟩, ⟨_, rfl, ?_⟩, ⟨_, rfl, ?_⟩,
    ⟨_, rfl, ?_⟩, ⟨_, rfl, ?_⟩⟩ <;> decide
theorem witness_StoreIsFetchedAsTheNextInstruction :
    (let s := { at100 with AC := 0x7001 }; s.hostEvents = [] ∧ s.S = true ∧ s.IEN = false ∧
        Memory.wf s.M = true ∧ decode s.cfg.opc s.AC = .ok .hlt) := by decide
theorem witness_ConstructedMachineMeetsInv :
    defaultConfig.wf = true ∧ Memory.wf [(0, 0x7001)] = true ∧ defaultConfig.reset.SC = .t0 := by decide
/-- For CycleNeverFailsAndKeepsInv, HostEventsKeepInv, ReachableStatesMeetInv and StepNeverFailsAndEndsAtBoundary. -/
theorem witness_invariants : Invariants State.reset ∧ Reachable State.reset :=
  ⟨⟨rfl, rfl, rfl⟩, Reachable.start defaultConfig [] rfl rfl rfl⟩
theorem witness_StepKeepsInv : Invariants State.reset ∧ ∃ t, step State.reset = .next t := ⟨⟨rfl, rfl, rfl⟩, _, rfl⟩
theorem witness_EndedMachineNeverStepsAgain : halted.S = false ∧ halted.R = false ∧ halted.hostEvents = [] := by decide
theorem witness_FirstInstructionIsAtAddressZero :
    defaultConfig.reset = defaultReset ∧ decode defaultOpc (memRead [(0, 0x2010)] 0) = .ok (.lda false 0x010) := by decide

end Sys2Proof.Machine.Tests
end

section
/-! PROOFS. The datapath (40_datapath.md sections 1 and 2): the register write and the two circulates. -/

namespace Sys2Proof.Machine

/-! ## The circulates as arithmetic -/

/-- R99: E and the shifted word share no bit, so their `|` is a sum. -/
theorem cirResult_toNat (A : Word) (E : Bool) : (cirResult A E).toNat = 32768 * E.toNat + A.toNat / 2 := by
  have hlow : A.toNat / 2 < 2 ^ 15 := by omega
  have hE : E.toNat * 32768 < 65536 := by have := E.toNat_le; omega
  calc (cirResult A E).toNat
      = 32768 * E.toNat ||| A.toNat / 2 := by
        simp [cirResult, Nat.shiftLeft_eq, Nat.shiftRight_eq_div_pow, Nat.mod_eq_of_lt hE, Nat.mul_comm]
    _ = 32768 * E.toNat + A.toNat / 2 := (Nat.two_pow_add_eq_or_of_lt hlow E.toNat).symm

/-- R100: the shift leaves bit 0 clear, so the `|` with E is a sum. -/
theorem cilResult_toNat (A : Word) (E : Bool) : (cilResult A E).toNat = 2 * (A.toNat % 32768) + E.toNat := by
  have hE : E.toNat < 2 ^ 1 := E.toNat_lt
  calc (cilResult A E).toNat
      = 2 * (A.toNat % 32768) ||| E.toNat := by
        have hword : E.toNat % 65536 = E.toNat := by omega
        simp [cilResult, Nat.shiftLeft_eq, Nat.mul_comm, ← Nat.mul_mod_mul_left, hword]
    _ = 2 * (A.toNat % 32768) + E.toNat := (Nat.two_pow_add_eq_or_of_lt hE (A.toNat % 32768)).symm

/-- Settles O8: the result words are sums of disjoint parts, the new E is the bit that leaves the word, and the ring's
rotation is then linear arithmetic. -/
theorem circulatesRotateTheSeventeenBitRing : Obligations.CirculatesRotateTheSeventeenBitRing := by
  unfold Obligations.CirculatesRotateTheSeventeenBitRing
  intro c A B E
  have hA : A.toNat < 65536 := A.isLt
  have hE : E.toNat ≤ 1 := E.toNat_le
  refine ⟨⟨cirResult A E, A.getLsbD 0, rfl, ?_⟩, ⟨cilResult A E, A.getLsbD 15, rfl, ?_⟩⟩
  · rw [cirResult_toNat, ← BitVec.testBit_toNat, Nat.toNat_testBit]
    omega
  · rw [cilResult_toNat, ← BitVec.testBit_toNat, Nat.toNat_testBit]
    omega

/-! ## The register write -/

/-- Settles O6: each register's write stores the value at the register's width, which is the remainder, in that field
alone. -/
theorem regWriteMasksToWidth : Obligations.RegWriteMasksToWidth := fun v _ =>
  have h8 : (BitVec.ofNat 8 v).toNat = v % 2 ^ 8 := BitVec.toNat_ofNat v 8
  have h12 : (BitVec.ofNat 12 v).toNat = v % 2 ^ 12 := BitVec.toNat_ofNat v 12
  have h16 : (BitVec.ofNat 16 v).toNat = v % 2 ^ 16 := BitVec.toNat_ofNat v 16
  ⟨⟨h12, rfl⟩, ⟨h12, rfl⟩, ⟨h8, rfl⟩, ⟨h8, rfl⟩, ⟨h16, rfl⟩, ⟨h16, rfl⟩, ⟨h16, rfl⟩, ⟨h16, rfl⟩⟩

end Sys2Proof.Machine
end

section
/-! PROOFS. The device flags and the host (60_exceptions.md R196 to R201): what host events leave alone, and what each
T-state does to FGI and FGO. -/

namespace Sys2Proof.Machine

/-! ## Host events and the device flags -/

@[simp] theorem regWrite_FGI (X : Reg) (v : Nat) (s : State) : (regWrite X v s).FGI = s.FGI := by cases X <;> rfl
@[simp] theorem regWrite_FGO (X : Reg) (v : Nat) (s : State) : (regWrite X v s).FGO = s.FGO := by cases X <;> rfl

theorem applyHost_FGO {e : HostEvent} (he : e ≠ .outputDrain) (s : State) : (applyHost e s).FGO = s.FGO := by
  cases e with
  | outputDrain => exact absurd rfl he
  | setReg X v => exact regWrite_FGO X v s
  | input b => rfl
  | setMem a v => rfl
  | snapshot => rfl

theorem applyHost_FGI {e : HostEvent} (he : ∀ b, e ≠ .input b) (s : State) : (applyHost e s).FGI = s.FGI := by
  cases e with
  | input b => exact absurd rfl (he b)
  | setReg X v => exact regWrite_FGI X v s
  | outputDrain => cases h : s.FGO <;> simp [applyHost, hostOutputDrain, h]
  | setMem a v => rfl
  | snapshot => rfl

/-! ## T-states and the device flags -/

/-- The two device flags are as they were (10_state.md R27, R28). -/
def SameDeviceFlags (s t : State) : Prop := t.FGI = s.FGI ∧ t.FGO = s.FGO

/-- What a T-state from `s` to `t` can do to the device flags: nothing, INP's clearing of FGI or OUT's clearing of FGO
(44_io_reference.md R171, R172). -/
def DeviceFlagMove (s t : State) : Prop :=
  SameDeviceFlags s t ∨
    s.CUR = some .INP ∧ s.SC = .t3 ∧ t.FGI = false ∧ t.FGO = s.FGO ∨
    s.CUR = some .OUT ∧ s.SC = .t3 ∧ t.FGO = false ∧ t.FGI = s.FGI

theorem deviceFlagMove_beginCycle {s t : State} : DeviceFlagMove (beginCycle s) t ↔ DeviceFlagMove s t := .rfl

theorem interruptState_sameDeviceFlags {s t : State} (h : interruptState s = .next t) : SameDeviceFlags s t := by
  obtain ⟨-, rfl⟩ | ⟨-, rfl⟩ | ⟨-, rfl⟩ := interruptState_cases h <;> exact ⟨rfl, rfl⟩

theorem idleState_sameDeviceFlags {s t : State} (h : idleState s = .next t) : SameDeviceFlags s t := by
  obtain ⟨-, ⟨-, rfl⟩ | ⟨-, rfl⟩⟩ := idleState_cases h <;> exact ⟨rfl, rfl⟩

theorem memRefT3_sameDeviceFlags (s : State) : SameDeviceFlags s (memRefT3 s) := ⟨memRefT3_FGI s, memRefT3_FGO s⟩

theorem skipIf_sameDeviceFlags (c : Bool) (s : State) : SameDeviceFlags s (complete (skipIf c s)) :=
  ⟨skipIf_FGI c s, skipIf_FGO c s⟩

/-- The two execute states with a move of their own are INP's and OUT's T3. -/
theorem executeState_deviceFlagMove {s t : State} (h : executeState s = .next t) : DeviceFlagMove s t := by
  obtain ⟨-, h⟩ | ⟨-, h⟩ | ⟨-, h⟩ | ⟨-, h⟩ | ⟨-, h⟩ | ⟨-, h⟩ | ⟨-, h⟩ | ⟨-, h⟩ | ⟨-, h⟩ | ⟨-, h⟩ | ⟨-, h⟩ | ⟨-, h⟩ |
    ⟨-, h⟩ | ⟨-, h⟩ | ⟨-, h⟩ | ⟨-, h⟩ | ⟨-, h⟩ | ⟨-, h⟩ | ⟨-, h⟩ | ⟨-, h⟩ | ⟨hcur, h⟩ | ⟨hcur, h⟩ | ⟨-, h⟩ | ⟨-, h⟩ |
    ⟨-, h⟩ | ⟨-, h⟩ := executeState_cases h
  · exact .inl (idleState_sameDeviceFlags h)
  · obtain ⟨-, rfl⟩ | ⟨-, rfl⟩ | ⟨-, rfl⟩ := andState_cases h
    exacts [.inl (memRefT3_sameDeviceFlags s), .inl ⟨rfl, rfl⟩, .inl ⟨rfl, rfl⟩]
  · obtain ⟨-, rfl⟩ | ⟨-, rfl⟩ | ⟨-, rfl⟩ := addState_cases h
    exacts [.inl (memRefT3_sameDeviceFlags s), .inl ⟨rfl, rfl⟩, .inl ⟨rfl, rfl⟩]
  · obtain ⟨-, rfl⟩ | ⟨-, rfl⟩ | ⟨-, rfl⟩ := ldaState_cases h
    exacts [.inl (memRefT3_sameDeviceFlags s), .inl ⟨rfl, rfl⟩, .inl ⟨rfl, rfl⟩]
  · obtain ⟨-, rfl⟩ | ⟨-, rfl⟩ := staState_cases h
    exacts [.inl (memRefT3_sameDeviceFlags s), .inl ⟨rfl, rfl⟩]
  · obtain ⟨-, rfl⟩ | ⟨-, rfl⟩ := bunState_cases h
    exacts [.inl (memRefT3_sameDeviceFlags s), .inl ⟨rfl, rfl⟩]
  · obtain ⟨-, rfl⟩ | ⟨-, rfl⟩ | ⟨-, rfl⟩ := bsaState_cases h
    exacts [.inl (memRefT3_sameDeviceFlags s), .inl ⟨rfl, rfl⟩, .inl ⟨rfl, rfl⟩]
  · obtain ⟨-, rfl⟩ | ⟨-, rfl⟩ | ⟨-, rfl⟩ | ⟨-, rfl⟩ := iszState_cases h
    exacts [.inl (memRefT3_sameDeviceFlags s), .inl ⟨rfl, rfl⟩, .inl ⟨rfl, rfl⟩,
      .inl (skipIf_sameDeviceFlags (iszSkips s) (storeToMemory .DR s))]
  · obtain ⟨-, rfl⟩ := claState_cases h; exact .inl ⟨rfl, rfl⟩
  · obtain ⟨-, rfl⟩ := cleState_cases h; exact .inl ⟨rfl, rfl⟩
  · obtain ⟨-, rfl⟩ := cmaState_cases h; exact .inl ⟨rfl, rfl⟩
  · obtain ⟨-, rfl⟩ := cmeState_cases h; exact .inl ⟨rfl, rfl⟩
  · obtain ⟨-, rfl⟩ := cirState_cases h; exact .inl ⟨rfl, rfl⟩
  · obtain ⟨-, rfl⟩ := cilState_cases h; exact .inl ⟨rfl, rfl⟩
  · obtain ⟨-, rfl⟩ := incState_cases h; exact .inl ⟨rfl, rfl⟩
  · obtain ⟨-, rfl⟩ := spaState_cases h; exact .inl (skipIf_sameDeviceFlags _ s)
  · obtain ⟨-, rfl⟩ := snaState_cases h; exact .inl (skipIf_sameDeviceFlags _ s)
  · obtain ⟨-, rfl⟩ := szaState_cases h; exact .inl (skipIf_sameDeviceFlags _ s)
  · obtain ⟨-, rfl⟩ := szeState_cases h; exact .inl (skipIf_sameDeviceFlags _ s)
  · obtain ⟨-, rfl⟩ := hltState_cases h; exact .inl ⟨rfl, rfl⟩
  · obtain ⟨hsc, rfl⟩ := inpState_cases h; exact .inr (.inl ⟨hcur, hsc, rfl, rfl⟩)
  · obtain ⟨hsc, rfl⟩ := outState_cases h; exact .inr (.inr ⟨hcur, hsc, rfl, rfl⟩)
  · obtain ⟨-, rfl⟩ := skiState_cases h; exact .inl (skipIf_sameDeviceFlags _ s)
  · obtain ⟨-, rfl⟩ := skoState_cases h; exact .inl (skipIf_sameDeviceFlags _ s)
  · obtain ⟨-, rfl⟩ := ionState_cases h; exact .inl ⟨rfl, rfl⟩
  · obtain ⟨-, rfl⟩ := iofState_cases h; exact .inl ⟨rfl, rfl⟩

/-- The fetch, the interrupt cycle and the halted machine leave both flags. -/
theorem cycle_deviceFlagMove {s t : State} (h : cycle s = .next t) : DeviceFlagMove s t := by
  obtain ⟨-, h⟩ | ⟨-, -, rfl⟩ | ⟨-, -, h⟩ := cycle_cases h
  · exact deviceFlagMove_beginCycle.mp (.inl (interruptState_sameDeviceFlags h))
  · exact .inl ⟨rfl, rfl⟩
  · obtain ⟨-, rfl⟩ | ⟨-, rfl⟩ | ⟨-, rfl⟩ | ⟨-, h⟩ := instructionState_cases h
    exacts [.inl ⟨rfl, rfl⟩, .inl ⟨rfl, rfl⟩, .inl ⟨rfl, rfl⟩,
      deviceFlagMove_beginCycle.mp (executeState_deviceFlagMove h)]

/-- Settles O46: the control state is kept by `applyHost_sameControl`, and a cycle that changes a device flag is the one
that clears it. -/
theorem hostMovesAndDeviceFlagWriters : Obligations.HostMovesAndDeviceFlagWriters := by
  unfold Obligations.HostMovesAndDeviceFlagWriters
  refine ⟨fun e s => ?_, fun s t h => ?_⟩
  · have hc := applyHost_sameControl e s
    exact ⟨hc.E, hc.I, hc.S, hc.R, hc.IEN, hc.SC, hc.CUR, fun he => applyHost_FGO he s, fun he => applyHost_FGI he s⟩
  · obtain ⟨hi, ho⟩ | ⟨hcur, hsc, hi, ho⟩ | ⟨hcur, hsc, ho, hi⟩ := cycle_deviceFlagMove h
    · exact ⟨fun hne => absurd ho hne, fun hne => absurd hi hne⟩
    · exact ⟨fun hne => absurd ho hne, fun _ => ⟨hcur, hsc, hi⟩⟩
    · exact ⟨fun _ => ⟨hcur, hsc, ho⟩, fun hne => absurd hi hne⟩

end Sys2Proof.Machine
end

section
/-! PROOFS. Encoding (30_encoding.md): decoder and encoder undo each other, the undecodable words, the Instruction Table. -/

namespace Sys2Proof

/-! ## Decoding an encoding -/

/-- A format-X word is found among the patterns, which are all different. -/
theorem decode_encode_formatX {o : OpcodeTable} (ho : o.wf = true) {i : Instr} (hi : i.isMemRef = false) :
    decode o (encode o i) = .ok i := by
  obtain ⟨-, -, hnodup, -⟩ := opcodeTable_wf.1 ho
  have hfind : findPattern (encode o i) (formatXPatterns o) = some i :=
    findPattern_of_mem (formatXPatterns_keys o ▸ hnodup) (mem_formatXPatterns o i hi)
  simp [decode, hfind]

/-- A memory-reference instruction stands in the op table under its word's fields. -/
theorem mem_memRefOps (o : OpcodeTable) {i : Instr} (hi : i.isMemRef = true) :
    (opField (encode o i), i) ∈ memRefOps o (indirectField (encode o i)) (addrField (encode o i)) := by
  cases i <;> simp [Instr.isMemRef] at hi <;> simp [encode, memRefOps]

/-- A word whose op field is a memory-reference value is no format-X pattern. -/
theorem findPattern_formatX_none {o : OpcodeTable} (ho : o.wf = true) {w : Word} (hw : opField w ≠ 7) :
    findPattern w (formatXPatterns o) = none := by
  obtain ⟨-, -, -, hop⟩ := opcodeTable_wf.1 ho
  rw [findPattern_none, formatXPatterns_keys]
  exact fun hmem => hw (hop w hmem)

theorem decode_encode_memRef {o : OpcodeTable} (ho : o.wf = true) {i : Instr} (hi : i.isMemRef = true) :
    decode o (encode o i) = .ok i := by
  obtain ⟨hnodup, h7, -, -⟩ := opcodeTable_wf.1 ho
  have hmem := mem_memRefOps o hi
  have hop : opField (encode o i) ∈ o.ops := memRefOps_keys o _ _ ▸ List.mem_map_of_mem hmem
  have hX := findPattern_formatX_none ho ((mem_ops_iff ho _).1 hop)
  have hM : memRefOf o (opField (encode o i)) (indirectField (encode o i)) (addrField (encode o i)) = some i :=
    findPattern_of_mem (memRefOps_keys o _ _ ▸ hnodup) hmem
  simp [decode, hX, hM]

/-- Settles O1: a format-X word by its pattern, a memory-reference word by its op field, which is no pattern's. -/
theorem decodeOfEncodeIsInstruction : Obligations.DecodeOfEncodeIsInstruction := by
  unfold Obligations.DecodeOfEncodeIsInstruction
  intro o i ho
  cases hi : i.isMemRef
  · exact decode_encode_formatX ho hi
  · exact decode_encode_memRef ho hi

/-! ## Encoding a decoding -/

/-- The two ways in which a word decodes to an instruction (30_encoding.md R63). -/
theorem decode_ok_cases {o : OpcodeTable} {w : Word} {i : Instr} (h : decode o w = .ok i) :
    findPattern w (formatXPatterns o) = some i ∨
      memRefOf o (opField w) (indirectField w) (addrField w) = some i := by
  unfold decode at h
  split at h
  · next hX => exact .inl (hX.trans (congrArg some (Except.ok.inj h)))
  · split at h
    · next hM => exact .inr (hM.trans (congrArg some (Except.ok.inj h)))
    · cases h

theorem encode_of_decode {o : OpcodeTable} {w : Word} {i : Instr} (h : decode o w = .ok i) : encode o i = w := by
  rcases decode_ok_cases h with hX | hM
  · exact (formatXPatterns_spec o _ (findPattern_mem hX)).1
  · exact (memRefOps_spec o _ _ _ (findPattern_mem hM)).1.trans (formatM_of_fields w)

/-- Settles O2: the entry that was found has the word's key, and a word is determined by its three fields. -/
theorem encodeOfDecodeIsWord : Obligations.EncodeOfDecodeIsWord := fun _ _ _ => encode_of_decode

/-! ## Undecodable words -/

/-- The decoder gives no instruction exactly when neither search finds one. -/
theorem decode_error_iff {o : OpcodeTable} {w : Word} {r : Reject} :
    decode o w = .error r ↔
      r = .notFound ∧ findPattern w (formatXPatterns o) = none ∧
        memRefOf o (opField w) (indirectField w) (addrField w) = none := by
  unfold decode
  cases findPattern w (formatXPatterns o) <;>
    cases memRefOf o (opField w) (indirectField w) (addrField w) <;> simp [eq_comm]

/-- Settles O3: each of the decoder's two searches fails exactly when the word is none of its keys. -/
theorem undecodableWordsExactly : Obligations.UndecodableWordsExactly := by
  unfold Obligations.UndecodableWordsExactly
  refine ⟨fun o w ho => ⟨?_, fun r hr => (decode_error_iff.1 hr).1⟩, defaultOpc_wf, rfl⟩
  simp only [decode_error_iff, findPattern_none, formatXPatterns_keys, memRefOf_none ho]
  exact ⟨fun ⟨_, _, hX, hM⟩ => ⟨hM, hX⟩, fun ⟨hM, hX⟩ => ⟨.notFound, rfl, hX, hM⟩⟩

/-- Settles O4: 21 fixed words, each decoded by evaluation. -/
theorem sampleWordsDecodeAsTheSpecSays : Obligations.SampleWordsDecodeAsTheSpecSays := by
  unfold Obligations.SampleWordsDecodeAsTheSpecSays
  decide

end Sys2Proof

namespace Sys2Proof.Machine

/-! ## The Instruction Table -/

/-- The instructions of the Instruction Table in its order, by mnemonic (30_encoding.md R69). -/
def tableInstrs : List (String × Instr) :=
  [("AND", .and false 0), ("ADD", .add false 0), ("LDA", .lda false 0), ("STA", .sta false 0), ("BUN", .bun false 0),
   ("BSA", .bsa false 0), ("ISZ", .isz false 0), ("CLA", .cla), ("CLE", .cle), ("CMA", .cma), ("CME", .cme),
   ("CIR", .cir), ("CIL", .cil), ("INC", .inc), ("SPA", .spa), ("SNA", .sna), ("SZA", .sza), ("SZE", .sze),
   ("HLT", .hlt), ("INP", .inp), ("OUT", .out), ("SKI", .ski), ("SKO", .sko), ("ION", .ion), ("IOF", .iof)]

theorem instructionTable_eq_map (o : OpcodeTable) :
    instructionTable o = tableInstrs.map fun p => entryOf o p.1 p.2 := rfl

theorem instructionTable_mnemonics_nodup (o : OpcodeTable) : ((instructionTable o).map (·.mnemonic)).Nodup := by
  have hnames : (instructionTable o).map (·.mnemonic) = tableInstrs.map (·.1) := rfl
  rw [hnames]
  decide

/-- The search by mnemonic finds every entry, since no two have the same mnemonic. -/
theorem fromMnemonic_of_mem {o : OpcodeTable} {e : TableEntry} (he : e ∈ instructionTable o) :
    fromMnemonic o e.mnemonic = some e := by
  have hsome : (fromMnemonic o e.mnemonic).isSome := List.find?_isSome.2 ⟨e, he, beq_self_eq_true _⟩
  obtain ⟨f, hf⟩ := Option.isSome_iff_exists.1 hsome
  have hname : f.mnemonic = e.mnemonic :=
    eq_of_beq (List.find?_some (p := fun g : TableEntry => g.mnemonic == e.mnemonic) hf)
  rw [hf, List.inj_on_of_nodup_map (instructionTable_mnemonics_nodup o) (List.mem_of_find?_eq_some hf) he hname]

theorem currentOf_encode {o : OpcodeTable} (ho : o.wf = true) (i : Instr) :
    currentOf o (encode o i) = some (mnemonicOf i) := by
  simp [currentOf, decodeOfEncodeIsInstruction o i ho]

theorem opField_encode_ne_seven {o : OpcodeTable} (ho : o.wf = true) (i : Instr) :
    opField (encode o i) ≠ 7 ↔ i.isMemRef = true := by
  cases hi : i.isMemRef
  · simp [opField_formatX ho hi]
  · have hop : opField (encode o i) ∈ o.ops := memRefOps_keys o _ _ ▸ List.mem_map_of_mem (mem_memRefOps o hi)
    exact iff_of_true ((mem_ops_iff ho _).1 hop) rfl

/-- Settles O5: each entry is made from an instruction, whose encoding decodes to it. -/
theorem instructionTableLookupsAgree : Obligations.InstructionTableLookupsAgree := by
  unfold Obligations.InstructionTableLookupsAgree
  refine fun o ho => ⟨rfl, fun e he => ⟨fromMnemonic_of_mem he, ?_⟩⟩
  rw [instructionTable_eq_map] at he
  obtain ⟨p, -, rfl⟩ := List.mem_map.1 he
  exact ⟨currentOf_encode ho p.2, opField_encode_ne_seven ho p.2⟩

end Sys2Proof.Machine
end

section
/-! PROOFS. The ALU's sum, the circulates as inverses (40_datapath.md section 2) and the extensionality of canonical memory
(20_memory.md sections 1 and 5). -/

namespace Sys2Proof.Machine

/-! ## The ALU -/

theorem addResult_toNat (A B : Word) : (addResult A B).toNat = (A.toNat + B.toNat) % 65536 := BitVec.toNat_add A B

/-- Settles O7: the carry is 1 exactly when the sum reaches 65536, and is then what the wrapped word lacks. -/
theorem aluAddIsExactSumWithCarry : Obligations.AluAddIsExactSumWithCarry := by
  unfold Obligations.AluAddIsExactSumWithCarry
  intro A B E
  refine ⟨⟨addResult A B, addCarry A B, rfl, ?_⟩, ⟨addResult A B, rfl, addResult_toNat A B⟩⟩
  have hA : A.toNat < 65536 := A.isLt
  have hB : B.toNat < 65536 := B.isLt
  rw [addResult_toNat, addCarry]
  by_cases hc : 65536 ≤ A.toNat + B.toNat
  · simp only [hc, decide_true, Bool.toNat_true]
    omega
  · simp only [hc, decide_false, Bool.toNat_false]
    omega

/-! ## The circulates, bit by bit -/

theorem cirResult_bit15 (A : Word) (E : Bool) : (cirResult A E).getLsbD 15 = E := by
  simp [cirResult]

theorem cirResult_bit (A : Word) (E : Bool) {k : Nat} (hk : k < 15) :
    (cirResult A E).getLsbD k = A.getLsbD (k + 1) := by
  simp [cirResult, hk, Nat.add_comm]

theorem cilResult_bit0 (A : Word) (E : Bool) : (cilResult A E).getLsbD 0 = E := by
  simp [cilResult]

theorem cilResult_bit (A : Word) (E : Bool) {k : Nat} (hk : k < 15) :
    (cilResult A E).getLsbD (k + 1) = A.getLsbD k := by
  have hword : k + 1 < 16 := by omega
  simp [cilResult, hword, BitVec.getLsbD_eq_getElem (show k < 16 by omega)]

/-- Settles O9: the bit that leaves the word is E of the other circulate, which puts it back; the other bits move one
place and return. -/
theorem cilAndCirUndoEachOther : Obligations.CilAndCirUndoEachOther := by
  unfold Obligations.CilAndCirUndoEachOther
  refine fun A E => ⟨⟨?_, cirResult_bit15 A E⟩, ⟨?_, cilResult_bit0 A E⟩⟩ <;> apply BitVec.eq_of_getLsbD_eq
  · rintro (_ | k) hk
    · exact cilResult_bit0 _ _
    · rw [cilResult_bit _ _ (by omega), cirResult_bit _ _ (by omega)]
  · intro k hk
    rcases Nat.lt_or_eq_of_le (Nat.le_of_lt_succ hk) with hk | rfl
    · rw [cirResult_bit _ _ hk, cilResult_bit _ _ hk]
    · exact cirResult_bit15 _ _

/-! ## Canonical memory -/

/-- What a canonical list with a first cell is. -/
theorem wfFrom_cons {lo k : Nat} {v : Word} {m : Memory} :
    wfFrom lo ((k, v) :: m) = true ↔ lo ≤ k ∧ k < 4096 ∧ v ≠ blankWord ∧ wfFrom (k + 1) m = true := by
  simp [wfFrom, and_assoc]

/-- The first cell of a canonical list does not read as blank, so it is at the first such address. -/
theorem first_cell_le {lo k : Nat} {v : Word} {m n : Memory} (hn : wfFrom lo n = true)
    (hv : v ≠ blankWord) (h : lookup n k = lookup ((k, v) :: m) k) : lo ≤ k := by
  by_contra hlt
  rw [lookup_below hn (by omega)] at h
  simp [lookup, hv.symm] at h

/-- Canonical lists that read alike at all 4096 addresses are equal: their first cells agree, and so do the rests. -/
theorem eq_of_lookup_eq {m n : Memory} {lo lo' : Nat} (hm : wfFrom lo m = true) (hn : wfFrom lo' n = true)
    (h : ∀ a < 4096, lookup m a = lookup n a) : m = n := by
  induction m generalizing n lo lo' with
  | nil =>
    cases n with
    | nil => rfl
    | cons d n =>
      obtain ⟨-, hl, hw, -⟩ := wfFrom_cons.1 hn
      simpa [lookup, hw.symm] using h d.1 hl
  | cons c m ih =>
    obtain ⟨k, v⟩ := c
    obtain ⟨-, hk, hv, hm'⟩ := wfFrom_cons.1 hm
    cases n with
    | nil => simpa [lookup, hv] using h k hk
    | cons d n =>
      obtain ⟨l, w⟩ := d
      obtain ⟨-, hl, hw, hn'⟩ := wfFrom_cons.1 hn
      have hlk : l ≤ k := first_cell_le (wfFrom_cons.2 ⟨le_rfl, hl, hw, hn'⟩) hv (h k hk).symm
      have hkl : k ≤ l := first_cell_le (wfFrom_cons.2 ⟨le_rfl, hk, hv, hm'⟩) hw (h l hl)
      obtain rfl : k = l := Nat.le_antisymm hkl hlk
      have hvw : v = w := by simpa [lookup] using h k hk
      have hrest : ∀ a < 4096, lookup m a = lookup n a := by
        intro a ha
        by_cases hka : k = a
        · rw [lookup_below hm' (by omega), lookup_below hn' (by omega)]
        · simpa [lookup, hka] using h a ha
      rw [hvw, ih hm' hn' hrest]

/-- Settles O10: `eq_of_lookup_eq` at the addresses as numbers. -/
theorem canonicalMemoriesThatReadAlikeAreEqual : Obligations.CanonicalMemoriesThatReadAlikeAreEqual := by
  unfold Obligations.CanonicalMemoriesThatReadAlikeAreEqual
  intro m n hm hn h
  refine eq_of_lookup_eq hm hn fun a ha => ?_
  simpa [memRead, Nat.mod_eq_of_lt ha] using h (BitVec.ofNat 12 a)

end Sys2Proof.Machine
end

section
/-! PROOFS. The execute states in one normal form (41_sequencer.md sections 3 to 6): every T-state T3 to T6 is its register
transfers, followed by `advance` before the current instruction's last T-state and by `complete` in it. -/

namespace Sys2Proof.Machine

/-! ## The transfers of the execute states -/

/-- R115: T3 of a memory-reference instruction, the indirect fetch if I = 1; AR then holds the effective address. -/
def fetchAddress (s : State) : State :=
  { s with
    AR := effectiveAddress s.I s.AR s.M
    MLATCH := if s.I then memRead s.M s.AR else s.MLATCH
    BUSREC := if s.I then some ⟨.MEM, .AR, memRead s.M s.AR⟩ else s.BUSREC }

/-- R150: the transfer of a skip under the condition `c`. -/
def skip (c : Bool) (s : State) : State := { s with PC := if c then s.PC + 1 else s.PC }

/-- R115, R118: what T3 transfers, by the current instruction. -/
def transfersT3 (c : Option Mnemonic) (s : State) : State :=
  match c with
  | none => s
  | some .AND | some .ADD | some .LDA | some .STA | some .BUN | some .BSA | some .ISZ => fetchAddress s
  | some .CLA => { s with AC := 0 }
  | some .CLE => { s with E := false }
  | some .CMA => aluToAC .CMA (some .AC) none s
  | some .CME => aluToAC .CME none none s
  | some .CIR => aluToAC .CIR (some .AC) none s
  | some .CIL => aluToAC .CIL (some .AC) none s
  | some .INC => { s with AC := s.AC + 1 }
  | some .SPA => skip (spaSkips s) s
  | some .SNA => skip (snaSkips s) s
  | some .SZA => skip (szaSkips s) s
  | some .SZE => skip (szeSkips s) s
  | some .HLT => { s with S := false }
  | some .INP => { s with AC := inpValue s.cfg.inpKeepsACHigh s.AC s.INPR, FGI := false }
  | some .OUT => { s with OUTR := s.AC.setWidth 8, FGO := false, BUSREC := some ⟨.AC, .OUTR, s.AC⟩ }
  | some .SKI => skip (skiSkips s) s
  | some .SKO => skip (skoSkips s) s
  | some .ION => { s with IEN := true }
  | some .IOF => { s with IEN := false }

/-- R117: `DR <- M[AR]`. -/
def fetchOperand (s : State) : State :=
  { s with DR := memRead s.M s.AR, MLATCH := memRead s.M s.AR, BUSREC := some ⟨.MEM, .DR, memRead s.M s.AR⟩ }

/-- R117: `M[AR] <- v`, where `src` drives `v` on the bus. -/
def storeWord (src : Endpoint) (v : Word) (s : State) : State :=
  { s with M := memWrite s.M s.AR v, MLATCH := v, BUSREC := some ⟨src, .MEM, v⟩ }

/-- R117: `PC <- AR`. -/
def jumpToAR (s : State) : State := { s with PC := s.AR, BUSREC := some ⟨.AR, .PC, s.AR.setWidth 16⟩ }

/-- R117: what T4 transfers. -/
def transfersT4 (c : Option Mnemonic) (s : State) : State :=
  match c with
  | some .AND | some .ADD | some .LDA | some .ISZ => fetchOperand s
  | some .STA => storeWord .AC s.AC s
  | some .BUN => jumpToAR s
  | some .BSA => { storeWord .PC (s.PC.setWidth 16) s with AR := s.AR + 1 }
  | _ => s

/-- R117: what T5 transfers. -/
def transfersT5 (c : Option Mnemonic) (s : State) : State :=
  match c with
  | some .AND => aluToAC .AND (some .AC) (some .DR) s
  | some .ADD => aluToAC .ADD (some .AC) (some .DR) s
  | some .LDA => aluToAC .LDA (some .DR) none s
  | some .BSA => jumpToAR s
  | some .ISZ => { s with DR := s.DR + 1 }
  | _ => s

/-- R117: what T6 transfers. -/
def transfersT6 (c : Option Mnemonic) (s : State) : State :=
  match c with
  | some .ISZ => skip (iszSkips s) (storeWord .DR s.DR s)
  | _ => s

/-- What the T-state at SC transfers, before SC and R are assigned. -/
def transfers (s : State) : State :=
  match s.SC with
  | .t3 => transfersT3 s.CUR s
  | .t4 => transfersT4 s.CUR s
  | .t5 => transfersT5 s.CUR s
  | .t6 => transfersT6 s.CUR s
  | _ => s

theorem transfers_t3 {s : State} (h : s.SC = .t3) : transfers s = transfersT3 s.CUR s := by simp only [transfers, h]
theorem transfers_t4 {s : State} (h : s.SC = .t4) : transfers s = transfersT4 s.CUR s := by simp only [transfers, h]
theorem transfers_t5 {s : State} (h : s.SC = .t5) : transfers s = transfersT5 s.CUR s := by simp only [transfers, h]
theorem transfers_t6 {s : State} (h : s.SC = .t6) : transfers s = transfersT6 s.CUR s := by simp only [transfers, h]

/-! ## The operations of the model as these transfers -/

theorem skipIf_eq_skip (c : Bool) (s : State) : skipIf c s = skip c s := by cases c <;> rfl

/-- T3 of a memory-reference instruction is never its last T-state. -/
theorem memRefT3_eq_advance (s : State) : memRefT3 s = advance (fetchAddress s) := by
  rw [memRefT3_eq]
  cases h : s.I <;> simp [fetchAddress, effectiveAddress, h, advance]

theorem operandT4_eq_advance (s : State) : operandT4 s = advance (fetchOperand s) := operandT4_eq s

theorem load_PC_AR_eq_jumpToAR (s : State) : load .PC .AR s = jumpToAR s := load_PC_AR s

theorem storeToMemory_eq_storeWord (src : Endpoint) (s : State) :
    storeToMemory src s = storeWord src (busSource src s) s := rfl

/-- The two ways a T-state at counter value `sc` of an instruction with last T-state `last` can end. -/
def sequenced (last : SC) (s t : State) : Result :=
  if s.SC = last then .next (complete t)
  else if s.SC.toNat < last.toNat then .next (advance t)
  else .refused .outsideInvariants

/-- The normal form: transfers, then `complete` in the last T-state and `advance` before it; beyond it there is none. -/
theorem executeState_eq {s : State} (h3 : 3 ≤ s.SC.toNat) :
    executeState s = sequenced (lastSC s.cfg s.CUR) s (transfers s) := by
  unfold executeState transfers
  cases hsc : s.SC with
  | t0 | t1 | t2 => simp [hsc, SC.toNat] at h3
  | t3 | t4 | t5 | t6 =>
    cases s.CUR with
    | none => simp [idleState, idleFrom, hsc, sequenced, lastSC, transfersT3, transfersT4, transfersT5, transfersT6]
    | some m =>
      cases m <;> simp [andState, addState, ldaState, staState, bunState, bsaState, iszState, claState, cleState,
        cmaState, cmeState, cirState, cilState, incState, spaState, snaState, szaState, szeState, hltState, inpState,
        outState, skiState, skoState, ionState, iofState, hsc, sequenced, lastSC, SC.toNat, transfersT3, transfersT4,
        transfersT5, transfersT6, memRefT3_eq_advance, operandT4_eq_advance, storeToMemory_eq_storeWord, busSource,
        regRead, load_PC_AR_eq_jumpToAR, load_OUTR_AC, skipIf_eq_skip]

end Sys2Proof.Machine
end

section
/-! PROOFS. What the transfers of an execute state write (10_state.md sections 2 and 3, 20_memory.md section 2): per field,
the only T-states and instructions that change it. -/

namespace Sys2Proof.Machine

/-- One case per T-state that transfers anything. -/
theorem transfers_cases {P : State → Prop} (s : State) (t3 : s.SC = .t3 → P (transfersT3 s.CUR s))
    (t4 : s.SC = .t4 → P (transfersT4 s.CUR s)) (t5 : s.SC = .t5 → P (transfersT5 s.CUR s))
    (t6 : s.SC = .t6 → P (transfersT6 s.CUR s)) (idle : P s) : P (transfers s) := by
  unfold transfers
  split
  · next h => exact t3 h
  · next h => exact t4 h
  · next h => exact t5 h
  · next h => exact t6 h
  · exact idle

/-! ## The fields that no execute state transfers to -/

/-- What T3 to T6 leave as it is, but for the sequencing of SC and R. -/
structure TransferKept (s t : State) : Prop where
  IR : t.IR = s.IR
  TR : t.TR = s.TR
  INPR : t.INPR = s.INPR
  I : t.I = s.I
  R : t.R = s.R
  SC : t.SC = s.SC
  CUR : t.CUR = s.CUR
  cfg : t.cfg = s.cfg
  hostEvents : t.hostEvents = s.hostEvents
  hostTook : t.hostTook = s.hostTook

theorem TransferKept.refl (s : State) : TransferKept s s := by constructor <;> rfl

theorem transfersT3_kept (c : Option Mnemonic) (s : State) : TransferKept s (transfersT3 c s) := by
  cases c with
  | none => exact .refl s
  | some m => cases m <;> constructor <;> rfl

theorem transfersT4_kept (c : Option Mnemonic) (s : State) : TransferKept s (transfersT4 c s) := by
  unfold transfersT4
  split <;> constructor <;> rfl

theorem transfersT5_kept (c : Option Mnemonic) (s : State) : TransferKept s (transfersT5 c s) := by
  unfold transfersT5
  split <;> constructor <;> rfl

theorem transfersT6_kept (c : Option Mnemonic) (s : State) : TransferKept s (transfersT6 c s) := by
  unfold transfersT6
  split <;> constructor <;> rfl

theorem transfers_kept (s : State) : TransferKept s (transfers s) :=
  transfers_cases s (fun _ => transfersT3_kept _ s) (fun _ => transfersT4_kept _ s) (fun _ => transfersT5_kept _ s)
    (fun _ => transfersT6_kept _ s) (.refl s)

@[simp] theorem transfers_IR (s : State) : (transfers s).IR = s.IR := (transfers_kept s).IR
@[simp] theorem transfers_TR (s : State) : (transfers s).TR = s.TR := (transfers_kept s).TR
@[simp] theorem transfers_INPR (s : State) : (transfers s).INPR = s.INPR := (transfers_kept s).INPR
@[simp] theorem transfers_I (s : State) : (transfers s).I = s.I := (transfers_kept s).I
@[simp] theorem transfers_R (s : State) : (transfers s).R = s.R := (transfers_kept s).R
@[simp] theorem transfers_SC (s : State) : (transfers s).SC = s.SC := (transfers_kept s).SC
@[simp] theorem transfers_CUR (s : State) : (transfers s).CUR = s.CUR := (transfers_kept s).CUR
@[simp] theorem transfers_cfg (s : State) : (transfers s).cfg = s.cfg := (transfers_kept s).cfg
@[simp] theorem transfers_hostEvents (s : State) : (transfers s).hostEvents = s.hostEvents := (transfers_kept s).hostEvents
@[simp] theorem transfers_hostTook (s : State) : (transfers s).hostTook = s.hostTook := (transfers_kept s).hostTook

/-! ## The writers of the other fields in T3 -/

theorem transfersT3_AC {c : Option Mnemonic} (s : State)
    (h : c ∉ [some .CLA, some .CMA, some .CIR, some .CIL, some .INC, some .INP]) : (transfersT3 c s).AC = s.AC := by
  cases c with
  | none => rfl
  | some m =>
    cases m
    case CLA | CMA | CIR | CIL | INC | INP => simp at h
    all_goals rfl

theorem transfersT3_E {c : Option Mnemonic} (s : State) (h : c ∉ [some .CLE, some .CME, some .CIR, some .CIL]) :
    (transfersT3 c s).E = s.E := by
  cases c with
  | none => rfl
  | some m =>
    cases m
    case CLE | CME | CIR | CIL => simp at h
    all_goals rfl

theorem transfersT3_PC {c : Option Mnemonic} (s : State)
    (h : c ∉ [some .SPA, some .SNA, some .SZA, some .SZE, some .SKI, some .SKO]) : (transfersT3 c s).PC = s.PC := by
  cases c with
  | none => rfl
  | some m =>
    cases m
    case SPA | SNA | SZA | SZE | SKI | SKO => simp at h
    all_goals rfl

theorem transfersT3_S {c : Option Mnemonic} (s : State) (h : c ≠ some .HLT) : (transfersT3 c s).S = s.S := by
  cases c with
  | none => rfl
  | some m =>
    cases m
    case HLT => simp at h
    all_goals rfl

theorem transfersT3_OUTR {c : Option Mnemonic} (s : State) (h : c ≠ some .OUT) : (transfersT3 c s).OUTR = s.OUTR := by
  cases c with
  | none => rfl
  | some m =>
    cases m
    case OUT => simp at h
    all_goals rfl

theorem transfersT3_FGO {c : Option Mnemonic} (s : State) (h : c ≠ some .OUT) : (transfersT3 c s).FGO = s.FGO := by
  cases c with
  | none => rfl
  | some m =>
    cases m
    case OUT => simp at h
    all_goals rfl

theorem transfersT3_FGI {c : Option Mnemonic} (s : State) (h : c ≠ some .INP) : (transfersT3 c s).FGI = s.FGI := by
  cases c with
  | none => rfl
  | some m =>
    cases m
    case INP => simp at h
    all_goals rfl

theorem transfersT3_IEN {c : Option Mnemonic} (s : State) (h : c ∉ [some .ION, some .IOF]) :
    (transfersT3 c s).IEN = s.IEN := by
  cases c with
  | none => rfl
  | some m =>
    cases m
    case ION | IOF => simp at h
    all_goals rfl

theorem transfersT3_ALUREC {c : Option Mnemonic} (s : State) (h : c ∉ [some .CMA, some .CME, some .CIR, some .CIL]) :
    (transfersT3 c s).ALUREC = s.ALUREC := by
  cases c with
  | none => rfl
  | some m =>
    cases m
    case CMA | CME | CIR | CIL => simp at h
    all_goals rfl

theorem transfersT3_M (c : Option Mnemonic) (s : State) : (transfersT3 c s).M = s.M := by
  cases c with
  | none => rfl
  | some m => cases m <;> rfl

/-- The seven memory-reference mnemonics. -/
def memRefMnemonics : List (Option Mnemonic) :=
  [some .AND, some .ADD, some .LDA, some .STA, some .BUN, some .BSA, some .ISZ]

theorem transfersT3_memRef {c : Option Mnemonic} (s : State) (h : c ∈ memRefMnemonics) :
    transfersT3 c s = fetchAddress s := by
  simp only [memRefMnemonics, List.mem_cons, List.not_mem_nil, or_false] at h
  rcases h with rfl | rfl | rfl | rfl | rfl | rfl | rfl <;> rfl

theorem mnemonicOf_mem_memRefMnemonics {i : Instr} (h : i.isMemRef = true) :
    some (mnemonicOf i) ∈ memRefMnemonics := by
  cases i <;> simp [Instr.isMemRef] at h <;> simp [mnemonicOf, memRefMnemonics]

/-- What T3 of a register- or IO-reference instruction leaves besides: the address, the operand and the latch. -/
structure FormatXKept (s t : State) : Prop where
  AR : t.AR = s.AR
  DR : t.DR = s.DR
  MLATCH : t.MLATCH = s.MLATCH

theorem transfersT3_formatX_kept {c : Option Mnemonic} (s : State) (h : c ∉ memRefMnemonics) :
    FormatXKept s (transfersT3 c s) := by
  cases c with
  | none => constructor <;> rfl
  | some m =>
    cases m
    case AND | ADD | LDA | STA | BUN | BSA | ISZ => simp [memRefMnemonics] at h
    all_goals constructor <;> rfl

theorem mnemonicOf_notMem_memRefMnemonics {i : Instr} (h : i.isMemRef = false) :
    some (mnemonicOf i) ∉ memRefMnemonics := by
  cases i <;> simp [Instr.isMemRef] at h <;> simp [mnemonicOf, memRefMnemonics]

/-! ## The writers of E, S, IEN, OUTR, FGI and memory in T3 to T6 -/

theorem transfersT5_E {c : Option Mnemonic} (s : State) (h : c ≠ some .ADD) : (transfersT5 c s).E = s.E := by
  cases c with
  | none => rfl
  | some m =>
    cases m
    case ADD => simp at h
    all_goals rfl

theorem transfers_E {s : State} (h3 : ¬(s.SC = .t3 ∧ s.CUR ∈ [some .CLE, some .CME, some .CIR, some .CIL]))
    (h5 : ¬(s.SC = .t5 ∧ s.CUR = some .ADD)) : (transfers s).E = s.E := by
  refine transfers_cases (P := fun t => t.E = s.E) s (fun hsc => transfersT3_E s fun hc => h3 ⟨hsc, hc⟩)
    (fun _ => ?_) (fun hsc => transfersT5_E s fun hc => h5 ⟨hsc, hc⟩) (fun _ => ?_) rfl
  · unfold transfersT4; split <;> rfl
  · unfold transfersT6; split <;> rfl

/-- The flags and the output byte, which only T3 can transfer to. -/
structure LateKept (s t : State) : Prop where
  S : t.S = s.S
  IEN : t.IEN = s.IEN
  OUTR : t.OUTR = s.OUTR
  FGI : t.FGI = s.FGI

theorem transfers_lateKept {s : State} (h : s.SC ≠ .t3) : LateKept s (transfers s) := by
  refine transfers_cases s (fun hsc => absurd hsc h) (fun _ => ?_) (fun _ => ?_) (fun _ => ?_) (by constructor <;> rfl)
  · unfold transfersT4; split <;> constructor <;> rfl
  · unfold transfersT5; split <;> constructor <;> rfl
  · unfold transfersT6; split <;> constructor <;> rfl

theorem transfers_S {s : State} (h : ¬(s.SC = .t3 ∧ s.CUR = some .HLT)) : (transfers s).S = s.S := by
  by_cases hsc : s.SC = .t3
  · rw [transfers_t3 hsc]
    exact transfersT3_S s fun hc => h ⟨hsc, hc⟩
  · exact (transfers_lateKept hsc).S

theorem transfers_IEN {s : State} (h : ¬(s.SC = .t3 ∧ s.CUR ∈ [some .ION, some .IOF])) : (transfers s).IEN = s.IEN := by
  by_cases hsc : s.SC = .t3
  · rw [transfers_t3 hsc]
    exact transfersT3_IEN s fun hc => h ⟨hsc, hc⟩
  · exact (transfers_lateKept hsc).IEN

theorem transfers_OUTR {s : State} (h : ¬(s.SC = .t3 ∧ s.CUR = some .OUT)) : (transfers s).OUTR = s.OUTR := by
  by_cases hsc : s.SC = .t3
  · rw [transfers_t3 hsc]
    exact transfersT3_OUTR s fun hc => h ⟨hsc, hc⟩
  · exact (transfers_lateKept hsc).OUTR

theorem transfers_FGI {s : State} (h : ¬(s.SC = .t3 ∧ s.CUR = some .INP)) : (transfers s).FGI = s.FGI := by
  by_cases hsc : s.SC = .t3
  · rw [transfers_t3 hsc]
    exact transfersT3_FGI s fun hc => h ⟨hsc, hc⟩
  · exact (transfers_lateKept hsc).FGI

/-- The T-states that store: T4 of STA and BSA, T6 of ISZ (20_memory.md section 2). -/
def storesNow (s : State) : Prop :=
  s.SC = .t4 ∧ s.CUR ∈ [some .STA, some .BSA] ∨ s.SC = .t6 ∧ s.CUR = some .ISZ

/-- An execute state leaves memory alone or stores one word at AR. -/
theorem transfers_M (s : State) :
    (transfers s).M = s.M ∨ storesNow s ∧ ∃ v, (transfers s).M = memWrite s.M s.AR v := by
  refine transfers_cases (P := fun t => t.M = s.M ∨ storesNow s ∧ ∃ v, t.M = memWrite s.M s.AR v) s
    (fun _ => .inl (transfersT3_M _ s)) (fun hsc => ?_) (fun _ => .inl ?_) (fun hsc => ?_) (.inl rfl)
  · cases hc : s.CUR with
    | none => exact .inl rfl
    | some m =>
      cases m
      case STA | BSA => exact .inr ⟨.inl ⟨hsc, by simp [hc]⟩, _, rfl⟩
      all_goals exact .inl rfl
  · unfold transfersT5; split <;> rfl
  · unfold transfersT6
    split
    · next hc => exact .inr ⟨.inr ⟨hsc, hc⟩, _, rfl⟩
    · exact .inl rfl

end Sys2Proof.Machine
end

section
/-! PROOFS. One cycle (41_sequencer.md sections 1 to 6): its equation at each T-state, the moves it can make, and what they
say about completion. -/

namespace Sys2Proof.Machine

/-! ## Counter values -/

theorem SC.toNat_le_six (n : SC) : n.toNat ≤ 6 := by cases n <;> decide

theorem nextSC_toNat {n : SC} (h : n.toNat < 6) : (nextSC n).toNat = n.toNat + 1 := by
  cases n <;> simp [SC.toNat] at h <;> rfl

theorem nextSC_ne_t0 {n : SC} (h : n.toNat < 6) : nextSC n ≠ .t0 := by
  intro h0
  have := nextSC_toNat h
  simp [h0, SC.toNat] at this

theorem lastSC_formatX {i : Instr} (h : i.isMemRef = false) (c : Config) : lastSC c (some (mnemonicOf i)) = .t3 := by
  cases i <;> simp [Instr.isMemRef] at h <;> rfl

theorem three_lt_lastSC_memRef {m : Option Mnemonic} (h : m ∈ memRefMnemonics) (c : Config) :
    3 < (lastSC c m).toNat := by
  simp only [memRefMnemonics, List.mem_cons, List.not_mem_nil, or_false] at h
  rcases h with rfl | rfl | rfl | rfl | rfl | rfl | rfl <;> simp [lastSC, SC.toNat]

theorem three_le_lastSC_some (c : Config) (m : Mnemonic) : 3 ≤ (lastSC c (some m)).toNat := by
  cases m <;> simp [lastSC, SC.toNat]

/-- Every instruction executes in T3 at least; so does an undecodable word with a legal UNDEF_LAST_T. -/
theorem three_le_lastSC {c : Config} (h : c.wf = true) (m : Option Mnemonic) : 3 ≤ (lastSC c m).toNat := by
  cases m with
  | none => simpa [Config.wf, lastSC] using h
  | some m => exact three_le_lastSC_some c m

/-! ## The end of a T-state -/

theorem sequenced_complete {last : SC} {s : State} (h : s.SC = last) (t : State) :
    sequenced last s t = .next (complete t) := by
  simp [sequenced, h]

theorem sequenced_advance {last : SC} {s : State} (h : s.SC.toNat < last.toNat) (t : State) :
    sequenced last s t = .next (advance t) := by
  have hne : s.SC ≠ last := by
    rintro rfl
    omega
  simp [sequenced, h, hne]

theorem sequenced_cases {last : SC} {s t u : State} (h : sequenced last s t = .next u) :
    s.SC = last ∧ u = complete t ∨ s.SC.toNat < last.toNat ∧ u = advance t := by
  unfold sequenced at h
  split at h
  · next hl => exact .inl ⟨hl, by simpa using h.symm⟩
  · split at h
    · next hlt => exact .inr ⟨hlt, by simpa using h.symm⟩
    · cases h

/-! ## The equation of a cycle -/

theorem cycle_interrupt {s : State} (hR : s.R = true) : cycle s = interruptState (beginCycle s) := by
  simp [cycle, hR]

/-- Settles O15: the test of R and S lets no T-state run. -/
theorem haltedCycleChangesNothing : Obligations.HaltedCycleChangesNothing := by
  unfold Obligations.HaltedCycleChangesNothing
  intro s hR hS
  simp [cycle, hR, hS]

theorem cycle_running {s : State} (hR : s.R = false) (hS : s.S = true) :
    cycle s = instructionState (beginCycle s) := by
  simp [cycle, hR, hS]

theorem instructionState_execute {s : State} (h3 : 3 ≤ s.SC.toNat) : instructionState s = executeState s := by
  unfold instructionState
  cases hsc : s.SC <;> simp [hsc, SC.toNat] at h3 ⊢

/-- R115 to R118: the execute states in their normal form. -/
theorem cycle_execute {s : State} (hR : s.R = false) (hS : s.S = true) (h3 : 3 ≤ s.SC.toNat) :
    cycle s = sequenced (lastSC s.cfg s.CUR) (beginCycle s) (transfers (beginCycle s)) := by
  have h3' : 3 ≤ (beginCycle s).SC.toNat := h3
  rw [cycle_running hR hS, instructionState_execute h3', executeState_eq h3']
  rfl

theorem cycle_completes {s : State} (hR : s.R = false) (hS : s.S = true) (h3 : 3 ≤ s.SC.toNat)
    (hl : s.SC = lastSC s.cfg s.CUR) : cycle s = .next (complete (transfers (beginCycle s))) :=
  (cycle_execute hR hS h3).trans (sequenced_complete hl _)

theorem cycle_advances {s : State} (hR : s.R = false) (hS : s.S = true) (h3 : 3 ≤ s.SC.toNat)
    (hl : s.SC.toNat < (lastSC s.cfg s.CUR).toNat) : cycle s = .next (advance (transfers (beginCycle s))) :=
  (cycle_execute hR hS h3).trans (sequenced_advance hl _)

/-! ## The moves of a cycle -/

/-- What one cycle can do to `s`. -/
inductive CycleMove (s : State) : State → Prop
  | rt0 (hR : s.R = true) (hsc : s.SC = .t0) : CycleMove s (interruptRT0 (beginCycle s))
  | rt1 (hR : s.R = true) (hsc : s.SC = .t1) : CycleMove s (interruptRT1 (beginCycle s))
  | rt2 (hR : s.R = true) (hsc : s.SC = .t2) : CycleMove s (interruptRT2 (beginCycle s))
  | halted (hR : s.R = false) (hS : s.S = false) : CycleMove s s
  | t0 (hR : s.R = false) (hS : s.S = true) (hsc : s.SC = .t0) : CycleMove s (fetchT0 (beginCycle s))
  | t1 (hR : s.R = false) (hS : s.S = true) (hsc : s.SC = .t1) : CycleMove s (fetchT1 (beginCycle s))
  | t2 (hR : s.R = false) (hS : s.S = true) (hsc : s.SC = .t2) : CycleMove s (decodeT2 (beginCycle s))
  | advances (hR : s.R = false) (hS : s.S = true) (h3 : 3 ≤ s.SC.toNat)
      (hl : s.SC.toNat < (lastSC s.cfg s.CUR).toNat) : CycleMove s (advance (transfers (beginCycle s)))
  | completes (hR : s.R = false) (hS : s.S = true) (h3 : 3 ≤ s.SC.toNat)
      (hl : s.SC = lastSC s.cfg s.CUR) : CycleMove s (complete (transfers (beginCycle s)))

theorem cycle_move {s t : State} (h : cycle s = .next t) : CycleMove s t := by
  obtain ⟨hR, h⟩ | ⟨hR, hS, rfl⟩ | ⟨hR, hS, h⟩ := cycle_cases h
  · obtain ⟨hsc, rfl⟩ | ⟨hsc, rfl⟩ | ⟨hsc, rfl⟩ := interruptState_cases h
    exacts [.rt0 hR hsc, .rt1 hR hsc, .rt2 hR hsc]
  · exact .halted hR hS
  · obtain ⟨hsc, rfl⟩ | ⟨hsc, rfl⟩ | ⟨hsc, rfl⟩ | ⟨h3, h⟩ := instructionState_cases h
    · exact .t0 hR hS hsc
    · exact .t1 hR hS hsc
    · exact .t2 hR hS hsc
    · rw [executeState_eq h3] at h
      obtain ⟨hl, rfl⟩ | ⟨hl, rfl⟩ := sequenced_cases h
      exacts [.completes hR hS h3 hl, .advances hR hS h3 hl]

/-! ## T0, T1, T2 and the interrupt's T-states -/

theorem fetchT0_eq (s : State) :
    fetchT0 s = { s with AR := s.PC, SC := .t1, BUSREC := some ⟨.PC, .AR, s.PC.setWidth 16⟩ } := by
  rw [fetchT0, load_AR_PC]

theorem fetchT1_eq (s : State) :
    fetchT1 s = { s with
      IR := memRead s.M s.AR
      PC := s.PC + 1
      SC := .t2
      MLATCH := memRead s.M s.AR
      BUSREC := some ⟨.MEM, .IR, memRead s.M s.AR⟩ } := by
  rw [fetchT1, loadFromMemory_IR]
  rfl

/-- Settles O11: the three T-states' equations. -/
theorem fetchAndDecodeCycles : Obligations.FetchAndDecodeCycles := by
  unfold Obligations.FetchAndDecodeCycles
  intro s hR hS
  refine ⟨fun hsc => ?_, fun hsc => ?_, fun hsc => ?_⟩ <;> rw [cycle_running hR hS]
  · simp only [instructionState, beginCycle_SC, hsc, fetchT0_eq]
    rfl
  · simp only [instructionState, beginCycle_SC, hsc, fetchT1_eq]
    rfl
  · simp only [instructionState, beginCycle_SC, hsc]
    rfl

/-- Settles O40: RT0 and RT1 are tested before S. -/
theorem interruptSaveCycles : Obligations.InterruptSaveCycles := by
  unfold Obligations.InterruptSaveCycles
  intro s hR
  refine ⟨fun hsc => ?_, fun hsc => ?_⟩ <;> rw [cycle_interrupt hR]
  · simp only [interruptState, beginCycle_SC, hsc, interruptRT0_eq]
    rfl
  · simp only [interruptState, beginCycle_SC, hsc]
    rfl

/-- Settles O41: RT2 is tested before S. -/
theorem interruptLastCycle : Obligations.InterruptLastCycle := by
  unfold Obligations.InterruptLastCycle
  intro s hR hsc
  rw [cycle_interrupt hR]
  simp only [interruptState, beginCycle_SC, hsc]
  rfl

/-! ## Completion -/

/-- A T-state that does not complete leads to a counter value other than 0. -/
theorem advances_SC {s : State} (hl : s.SC.toNat < (lastSC s.cfg s.CUR).toNat) :
    (advance (transfers (beginCycle s))).SC ≠ .t0 := by
  have hlast := SC.toNat_le_six (lastSC s.cfg s.CUR)
  simpa using nextSC_ne_t0 (by omega)

/-- Settles O16: the last T-state is the one that completes, and the other moves of a running machine neither end at
SC = 0 nor raise R. -/
theorem completionRecomputesR : Obligations.CompletionRecomputesR := by
  unfold Obligations.CompletionRecomputesR
  intro s t h
  refine ⟨fun hR hS hwf hl => ?_, fun hR hS h0 => ?_, fun hR hRt => ?_⟩
  · have h3 : 3 ≤ s.SC.toNat := hl ▸ three_le_lastSC hwf s.CUR
    rw [cycle_completes hR hS h3 hl] at h
    cases h
    rfl
  · cases cycle_move h with
    | rt0 hR' | rt1 hR' | rt2 hR' => simp [hR] at hR'
    | halted _ hS' => simp [hS] at hS'
    | t0 => simp [fetchT0] at h0
    | t1 => simp [fetchT1] at h0
    | t2 => simp [decodeT2] at h0
    | advances _ _ _ hl => exact absurd h0 (advances_SC hl)
    | completes => rfl
  · cases cycle_move h with
    | rt0 hR' | rt1 hR' | rt2 hR' => simp [hR] at hR'
    | halted _ _ => simp [hR] at hRt
    | t0 => simp [fetchT0, hR] at hRt
    | t1 => simp [fetchT1_eq, hR] at hRt
    | t2 => simp [decodeT2, hR] at hRt
    | advances => simp [hR] at hRt
    | completes _ hS => exact ⟨hS, rfl⟩

end Sys2Proof.Machine
end

section
/-! PROOFS. The tables of T3 to T6 (41_sequencer.md sections 3 and 5, 43_register_reference.md, 44_io_reference.md): one cycle
of each instruction in each execute state. -/

namespace Sys2Proof.Machine

section
variable {s : State} {c : Option Mnemonic} (hR : s.R = false) (hS : s.S = true) (hc : s.CUR = c)

include hR hS hc

/-! ## The cycle of a known T-state and instruction -/

theorem cycle_completes_t3 (hsc : s.SC = .t3) (hl : lastSC s.cfg c = .t3) :
    cycle s = .next (complete (transfersT3 c (beginCycle s))) := by
  subst hc
  rw [cycle_completes hR hS (by simp [hsc, SC.toNat]) (hsc.trans hl.symm), transfers_t3 (by simpa using hsc)]
  rfl

theorem cycle_advances_t3 (hsc : s.SC = .t3) (hl : 3 < (lastSC s.cfg c).toNat) :
    cycle s = .next { transfersT3 c (beginCycle s) with SC := .t4 } := by
  subst hc
  have hkept := (transfersT3_kept s.CUR (beginCycle s)).SC
  rw [cycle_advances hR hS (by simp [hsc, SC.toNat]) (by simpa [hsc, SC.toNat] using hl),
    transfers_t3 (by simpa using hsc)]
  simp [advance, hkept, hsc, nextSC]

theorem cycle_completes_t4 (hsc : s.SC = .t4) (hl : lastSC s.cfg c = .t4) :
    cycle s = .next (complete (transfersT4 c (beginCycle s))) := by
  subst hc
  rw [cycle_completes hR hS (by simp [hsc, SC.toNat]) (hsc.trans hl.symm), transfers_t4 (by simpa using hsc)]
  rfl

theorem cycle_advances_t4 (hsc : s.SC = .t4) (hl : 4 < (lastSC s.cfg c).toNat) :
    cycle s = .next { transfersT4 c (beginCycle s) with SC := .t5 } := by
  subst hc
  have hkept := (transfersT4_kept s.CUR (beginCycle s)).SC
  rw [cycle_advances hR hS (by simp [hsc, SC.toNat]) (by simpa [hsc, SC.toNat] using hl),
    transfers_t4 (by simpa using hsc)]
  simp [advance, hkept, hsc, nextSC]

theorem cycle_completes_t5 (hsc : s.SC = .t5) (hl : lastSC s.cfg c = .t5) :
    cycle s = .next (complete (transfersT5 c (beginCycle s))) := by
  subst hc
  rw [cycle_completes hR hS (by simp [hsc, SC.toNat]) (hsc.trans hl.symm), transfers_t5 (by simpa using hsc)]
  rfl

theorem cycle_advances_t5 (hsc : s.SC = .t5) (hl : 5 < (lastSC s.cfg c).toNat) :
    cycle s = .next { transfersT5 c (beginCycle s) with SC := .t6 } := by
  subst hc
  have hkept := (transfersT5_kept s.CUR (beginCycle s)).SC
  rw [cycle_advances hR hS (by simp [hsc, SC.toNat]) (by simpa [hsc, SC.toNat] using hl),
    transfers_t5 (by simpa using hsc)]
  simp [advance, hkept, hsc, nextSC]

theorem cycle_completes_t6 (hsc : s.SC = .t6) (hl : lastSC s.cfg c = .t6) :
    cycle s = .next (complete (transfersT6 c (beginCycle s))) := by
  subst hc
  rw [cycle_completes hR hS (by simp [hsc, SC.toNat]) (hsc.trans hl.symm), transfers_t6 (by simpa using hsc)]
  rfl

end

/-! ## Completions with a skip, and the skip conditions -/

/-- A completion after a skip under any condition that says the same as the model's. -/
theorem complete_skip {b : Bool} {P : Prop} [Decidable P] (h : b = true ↔ P) (s : State) :
    complete (skip b s) =
      { s with PC := if P then s.PC + 1 else s.PC, SC := .t0, R := s.IEN && (s.FGI || s.FGO) } := by
  simp only [complete, skip, interruptRequest, h]

theorem spaSkips_iff (s : State) : spaSkips s = true ↔ s.AC.getLsbD 15 = false := by simp [spaSkips]

theorem szaSkips_iff (s : State) : szaSkips s = true ↔ s.AC = 0 := by simp [szaSkips]

theorem szeSkips_iff (s : State) : szeSkips s = true ↔ s.E = false := by simp [szeSkips]

theorem iszSkips_iff (s : State) : iszSkips s = true ↔ s.DR = 0 := by simp [iszSkips]

/-- The completion of OUT: R is computed with FGO cleared. -/
theorem complete_out (s : State) :
    complete (transfersT3 (some .OUT) s) =
      { s with
        OUTR := s.AC.extractLsb' 0 8, FGO := false, SC := .t0, R := s.IEN && s.FGI
        BUSREC := some ⟨.AC, .OUTR, s.AC⟩ } := by
  simp [complete, transfersT3, interruptRequest, BitVec.setWidth_eq_extractLsb']

/-! ## The T3 of the format-X instructions -/

/-- Settles O13: each mnemonic completes in T3 with its one transfer. -/
theorem formatXExecuteStates : Obligations.FormatXExecuteStates := by
  unfold Obligations.FormatXExecuteStates
  intro s hR hS hsc
  have h {m : Mnemonic} (hc : s.CUR = some m) (hl : lastSC s.cfg (some m) = .t3) :
      cycle s = .next (complete (transfersT3 (some m) (beginCycle s))) := cycle_completes_t3 hR hS hc hsc hl
  have hskip {m : Mnemonic} {b : Bool} {P : Prop} [Decidable P] (hc : s.CUR = some m)
      (hl : lastSC s.cfg (some m) = .t3) (ht : transfersT3 (some m) (beginCycle s) = skip b (beginCycle s))
      (hb : b = true ↔ P) :
      cycle s = .next { s with
        PC := if P then s.PC + 1 else s.PC, SC := .t0, R := s.IEN && (s.FGI || s.FGO), BUSREC := none } := by
    rw [h hc hl, ht, complete_skip hb]
    rfl
  refine ⟨fun hc => h hc rfl, fun hc => h hc rfl, fun hc => h hc rfl, fun hc => h hc rfl, fun hc => h hc rfl,
    fun hc => h hc rfl, fun hc => h hc rfl, fun hc => hskip hc rfl rfl (spaSkips_iff s), fun hc => hskip hc rfl rfl .rfl,
    fun hc => hskip hc rfl rfl (szaSkips_iff s), fun hc => hskip hc rfl rfl (szeSkips_iff s), fun hc => h hc rfl,
    fun hc => h hc rfl, fun hc => ?_, fun hc => hskip hc rfl rfl .rfl, fun hc => hskip hc rfl rfl .rfl,
    fun hc => h hc rfl, fun hc => h hc rfl⟩
  rw [h hc rfl, complete_out]
  rfl

/-- Settles O12: format-X instructions complete in T3, memory-reference ones never do, an undecodable word only if
UNDEF_LAST_T is 3. -/
theorem threeWayBranchAtT3 : Obligations.ThreeWayBranchAtT3 := by
  unfold Obligations.ThreeWayBranchAtT3
  intro s hR hS hsc
  refine ⟨fun i hi hc => ?_, fun hc => ?_, fun hc => ⟨fun hl => ?_, fun hl => cycle_completes_t3 hR hS hc hsc hl⟩⟩
  · have hk := transfersT3_kept (some (mnemonicOf i)) (beginCycle s)
    have hx := transfersT3_formatX_kept (beginCycle s) (mnemonicOf_notMem_memRefMnemonics hi)
    exact ⟨_, cycle_completes_t3 hR hS hc hsc (lastSC_formatX hi s.cfg), rfl, rfl, hx.AR, hx.DR, hk.IR, hk.TR, hk.INPR,
      hk.I, hk.CUR, transfersT3_M _ _, hx.MLATCH, hk.cfg, hk.hostEvents, hk.hostTook⟩
  · have h := cycle_advances_t3 hR hS rfl hsc (three_lt_lastSC_memRef hc s.cfg)
    rw [transfersT3_memRef _ hc] at h
    refine ⟨fun hI => ?_, fun hI => ?_⟩ <;> rw [h] <;> simp [fetchAddress, effectiveAddress, hI, beginCycle]
  · have hlt : 3 < (lastSC s.cfg none).toNat := by rcases hl with hl | hl | hl <;> simp [lastSC, hl, SC.toNat]
    exact cycle_advances_t3 hR hS hc hsc hlt

/-! ## T4, T5 and T6 of the memory-reference instructions -/

theorem cycle_operandT4 {s : State} (hR : s.R = false) (hS : s.S = true) (hsc : s.SC = .t4)
    (hc : s.CUR ∈ [some .AND, some .ADD, some .LDA, some .ISZ]) :
    cycle s = .next { fetchOperand (beginCycle s) with SC := .t5 } := by
  simp only [List.mem_cons, List.not_mem_nil, or_false] at hc
  rcases hc with hc | hc | hc | hc <;> exact cycle_advances_t4 hR hS hc hsc (by simp [lastSC, SC.toNat])

/-- Settles O14: one transfer per entry of the table. -/
theorem memoryReferenceExecuteStates : Obligations.MemoryReferenceExecuteStates := by
  unfold Obligations.MemoryReferenceExecuteStates
  intro s hR hS
  refine ⟨cycle_operandT4 hR hS,
    fun hsc hc => cycle_completes_t5 hR hS hc hsc rfl, fun hsc hc => cycle_completes_t5 hR hS hc hsc rfl,
    fun hsc hc => cycle_completes_t5 hR hS hc hsc rfl, fun hsc hc => cycle_completes_t4 hR hS hc hsc rfl,
    fun hsc hc => cycle_completes_t4 hR hS hc hsc rfl,
    fun hsc hc => cycle_advances_t4 hR hS hc hsc (by simp [lastSC, SC.toNat]),
    fun hsc hc => cycle_completes_t5 hR hS hc hsc rfl,
    fun hsc hc => cycle_advances_t5 hR hS hc hsc (by simp [lastSC, SC.toNat]), fun hsc hc => ?_⟩
  rw [cycle_completes_t6 hR hS hc hsc rfl, transfersT6, complete_skip (iszSkips_iff _)]
  rfl

end Sys2Proof.Machine
end

section
/-! PROOFS. Over all cycles: who writes what (10_state.md sections 2 and 3, 20_memory.md section 2), and the invariants of
10_state.md section 5. -/

namespace Sys2Proof.Machine

/-! ## Writers -/

/-- Settles O49: of the moves of a cycle only RT0 writes TR and only T1 writes IR; among the transfers OUTR is OUT's. -/
theorem writersOfRegisters : Obligations.WritersOfRegisters := by
  unfold Obligations.WritersOfRegisters
  intro s t h
  have hout : ¬(s.SC = .t3 ∧ s.CUR = some .OUT) → (transfers (beginCycle s)).OUTR = s.OUTR :=
    transfers_OUTR (s := beginCycle s)
  cases cycle_move h with
  | rt0 hR hsc => simp [interruptRT0_eq, hR, hsc]
  | rt1 => simp [interruptRT1_eq]
  | rt2 => simp
  | halted => simp
  | t0 => simp [fetchT0_eq]
  | t1 hR hS hsc => simp [fetchT1_eq, hR, hS, hsc]
  | t2 => simp [decodeT2]
  | advances hR | completes hR =>
    refine ⟨fun hne => absurd (transfers_TR _) hne, transfers_INPR _, fun hne => absurd (transfers_IR _) hne,
      fun hne => ?_⟩
    by_contra hno
    exact hne (hout fun ⟨hsc, hc⟩ => hno ⟨hR, hc, hsc⟩)

/-- What the transfers of an execute state do to the flags, as WritersOfFlags words it. -/
theorem transfers_flagWriters (s : State) :
    ((transfers s).S ≠ s.S → s.CUR = some .HLT ∧ s.SC = .t3 ∧ (transfers s).S = false) ∧
    ((transfers s).IEN ≠ s.IEN → s.SC = .t3 ∧
      (s.CUR = some .ION ∧ (transfers s).IEN = true ∨ s.CUR = some .IOF ∧ (transfers s).IEN = false)) ∧
    ((transfers s).E ≠ s.E →
      s.SC = .t3 ∧ s.CUR ∈ [some .CLE, some .CME, some .CIR, some .CIL] ∨ s.SC = .t5 ∧ s.CUR = some .ADD) := by
  refine ⟨fun hne => ?_, fun hne => ?_, fun hne => ?_⟩
  · obtain ⟨hsc, hc⟩ := not_imp_comm.1 transfers_S hne
    exact ⟨hc, hsc, by rw [transfers_t3 hsc, hc]; rfl⟩
  · obtain ⟨hsc, hc⟩ := not_imp_comm.1 transfers_IEN hne
    rw [transfers_t3 hsc]
    simp only [List.mem_cons, List.not_mem_nil, or_false] at hc
    rcases hc with hc | hc <;> rw [hc]
    · exact ⟨hsc, .inl ⟨rfl, rfl⟩⟩
    · exact ⟨hsc, .inr ⟨rfl, rfl⟩⟩
  · by_contra hno
    exact hne (transfers_E (fun h3 => hno (.inl h3)) fun h5 => hno (.inr h5))

/-- Settles O50: T2 latches I and CUR, RT2 clears IEN, and the rest is the transfers'. -/
theorem writersOfFlags : Obligations.WritersOfFlags := by
  unfold Obligations.WritersOfFlags
  intro s t h
  obtain ⟨hwS, hwIEN, hwE⟩ := transfers_flagWriters (beginCycle s)
  cases cycle_move h with
  | rt0 => simp [interruptRT0_eq]
  | rt1 => simp [interruptRT1_eq]
  | rt2 hR hsc => simp [hR, hsc]
  | halted => simp
  | t0 => simp [fetchT0_eq]
  | t1 => simp [fetchT1_eq]
  | t2 hR hS hsc => simp [decodeT2, hR, hS, hsc]
  | advances hR | completes hR =>
    refine ⟨fun hne => ?_, fun hne => ⟨hR, hwS hne⟩, fun hne => ?_, fun hne => ⟨hR, hwE hne⟩⟩
    · exact absurd hne (by simp)
    · obtain ⟨hsc, hw⟩ := hwIEN hne
      exact .inr ⟨hR, hsc, hw⟩

/-- A cycle leaves memory alone, or it is one of the four that store a word at AR. -/
theorem cycle_M {s t : State} (h : cycle s = .next t) :
    t.M = s.M ∨ (s.R = true ∧ s.SC = .t1 ∨ s.R = false ∧ s.S = true ∧ storesNow s) ∧
      ∃ v, t.M = memWrite s.M s.AR v := by
  cases cycle_move h with
  | rt0 => simp [interruptRT0_eq]
  | rt1 hR hsc => exact .inr ⟨.inl ⟨hR, hsc⟩, _, rfl⟩
  | rt2 => simp
  | halted => simp
  | t0 => simp [fetchT0_eq]
  | t1 => simp [fetchT1_eq]
  | t2 => simp [decodeT2]
  | advances hR hS | completes hR hS =>
    obtain hM | ⟨hst, v, hM⟩ := transfers_M (beginCycle s)
    · exact .inl hM
    · exact .inr ⟨.inr ⟨hR, hS, hst⟩, v, hM⟩

/-- Settles O51: a store at AR leaves the other cells. -/
theorem cyclesWriteMemoryOnlyAtAR : Obligations.CyclesWriteMemoryOnlyAtAR := by
  unfold Obligations.CyclesWriteMemoryOnlyAtAR
  intro s t h
  obtain hM | ⟨hst, v, hM⟩ := cycle_M h
  · exact ⟨fun b _ => by rw [hM], fun hne => absurd hM hne⟩
  · exact ⟨fun b hb => by rw [hM, memRead_memWrite_other _ _ hb], fun _ => hst⟩

/-! ## Invariants -/

/-- SC = 0 is a control state that occurs, whatever the flags are. -/
theorem controlOk_of_t0 {s : State} (h : s.SC = .t0) : controlOk s = true := by
  cases hR : s.R <;> cases hS : s.S <;> simp [controlOk, hR, hS, h, SC.toNat]

/-- SC up to 2 occurs with R = 1 and in a running machine. -/
theorem controlOk_of_le_two {s : State} (h : s.SC.toNat ≤ 2) (hRS : s.R = true ∨ s.S = true) : controlOk s = true := by
  rcases hRS with hR | hS
  · simp [controlOk, hR, h]
  · cases hR : s.R <;> simp [controlOk, hR, hS, h]

theorem controlOk_of_le_last {s : State} (hR : s.R = false) (hS : s.S = true)
    (h : s.SC.toNat ≤ (lastSC s.cfg s.CUR).toNat) : controlOk s = true := by
  simp [controlOk, hR, hS, h]

theorem controlOk_interrupt {s : State} (h : controlOk s = true) (hR : s.R = true) : s.SC.toNat ≤ 2 := by
  simpa [controlOk, hR] using h

theorem controlOk_execute {s : State} (h : controlOk s = true) (hR : s.R = false) (hS : s.S = true)
    (h3 : 3 ≤ s.SC.toNat) : s.SC.toNat ≤ (lastSC s.cfg s.CUR).toNat := by
  have h2 : ¬s.SC.toNat ≤ 2 := by omega
  simpa [controlOk, hR, hS, h2] using h

theorem controlOk_halted {s : State} (h : controlOk s = true) (hR : s.R = false) (hS : s.S = false) : s.SC = .t0 := by
  simpa [controlOk, hR, hS] using h

theorem SC.eq_of_toNat_eq {m n : SC} (h : m.toNat = n.toNat) : m = n := by
  cases m <;> cases n <;> simp_all [SC.toNat]

/-- A cycle never writes the parameters. -/
theorem cycle_cfg {s t : State} (h : cycle s = .next t) : t.cfg = s.cfg := by
  cases cycle_move h with
  | rt0 => simp [interruptRT0_eq]
  | rt1 | rt2 | halted | t2 => rfl
  | t0 => simp [fetchT0_eq]
  | t1 => simp [fetchT1_eq]
  | advances | completes => exact transfers_cfg _

theorem cycle_memory_wf {s t : State} (h : cycle s = .next t) (hM : Memory.wf s.M = true) : Memory.wf t.M = true := by
  obtain hm | ⟨-, v, hm⟩ := cycle_M h
  · rwa [hm]
  · rw [hm]
    exact memWrite_wf _ _ hM

theorem cycle_controlOk {s t : State} (h : cycle s = .next t) (hwf : s.cfg.wf = true) (hctl : controlOk s = true) :
    controlOk t = true := by
  cases cycle_move h with
  | rt0 hR => exact controlOk_of_le_two (by simp [interruptRT0_eq, SC.toNat]) (.inl (by simpa [interruptRT0_eq] using hR))
  | rt1 hR => exact controlOk_of_le_two (by simp [interruptRT1_eq, SC.toNat]) (.inl (by simpa [interruptRT1_eq] using hR))
  | rt2 => exact controlOk_of_t0 rfl
  | halted => exact hctl
  | t0 _ hS => exact controlOk_of_le_two (by simp [fetchT0_eq, SC.toNat]) (.inr (by simpa [fetchT0_eq] using hS))
  | t1 _ hS => exact controlOk_of_le_two (by simp [fetchT1_eq, SC.toNat]) (.inr (by simpa [fetchT1_eq] using hS))
  | t2 hR hS => exact controlOk_of_le_last hR hS (three_le_lastSC hwf _)
  | advances hR hS h3 hl =>
    have hlast := SC.toNat_le_six (lastSC s.cfg s.CUR)
    have hSt : (transfers (beginCycle s)).S = s.S := transfers_S (s := beginCycle s) fun ⟨_, hc⟩ => by
      simp only [beginCycle_CUR] at hc
      have h3' : (lastSC s.cfg s.CUR).toNat = 3 := by rw [hc]; rfl
      omega
    refine controlOk_of_le_last (by simpa using hR) (hSt.trans hS) ?_
    simpa [nextSC_toNat (show s.SC.toNat < 6 by omega)] using hl
  | completes => exact controlOk_of_t0 rfl

/-- From a control state that occurs a cycle is never refused. -/
theorem cycle_answers {s : State} (hctl : controlOk s = true) : ∃ t, cycle s = .next t := by
  cases hR : s.R with
  | true =>
    have h2 := controlOk_interrupt hctl hR
    rw [cycle_interrupt hR, interruptState, beginCycle_SC]
    cases hsc : s.SC <;> simp [hsc, SC.toNat] at h2 ⊢
  | false =>
    cases hS : s.S with
    | false => exact ⟨s, haltedCycleChangesNothing s hR hS⟩
    | true =>
      by_cases h3 : 3 ≤ s.SC.toNat
      · rcases Nat.lt_or_eq_of_le (controlOk_execute hctl hR hS h3) with hl | hl
        · exact ⟨_, cycle_advances hR hS h3 hl⟩
        · exact ⟨_, cycle_completes hR hS h3 (SC.eq_of_toNat_eq hl)⟩
      · rw [cycle_running hR hS, instructionState, beginCycle_SC]
        cases hsc : s.SC <;> simp [hsc, SC.toNat] at h3 ⊢

/-- Settles O54: the control state decides whether a cycle answers, and each move leads to one that occurs. -/
theorem cycleNeverFailsAndKeepsInv : Obligations.CycleNeverFailsAndKeepsInv := by
  unfold Obligations.CycleNeverFailsAndKeepsInv
  intro s hs
  obtain ⟨t, h⟩ := cycle_answers hs.control
  exact ⟨t, h, cycle_controlOk h hs.config hs.control, cycle_memory_wf h hs.memory, (cycle_cfg h).symm ▸ hs.config⟩

/-- A host event writes nothing that the control state depends on. -/
theorem SameControl.controlOk_eq {s t : State} (h : SameControl s t) : controlOk t = controlOk s := by
  simp only [controlOk, h.R, h.S, h.SC, h.CUR, h.cfg]

/-- Settles O55: host events keep the control state (60_exceptions.md R201) and the canonical form. -/
theorem hostEventsKeepInv : Obligations.HostEventsKeepInv := by
  unfold Obligations.HostEventsKeepInv
  intro e s hs
  have hc := applyHost_sameControl e s
  exact ⟨hc.controlOk_eq.trans hs.control, applyHost_memory_wf e s hs.memory, hc.cfg.symm ▸ hs.config⟩

/-- Settles O56: induction on how the state is reached. -/
theorem reachableStatesMeetInv : Obligations.ReachableStatesMeetInv := by
  unfold Obligations.ReachableStatesMeetInv
  intro s hs
  induction hs with
  | start c image hc hm hr => exact ⟨hr, hm, hc⟩
  | move s t m _ h ih =>
    cases m with
    | cycle =>
      obtain ⟨u, hu, hinv⟩ := cycleNeverFailsAndKeepsInv s ih
      cases hu.symm.trans h
      exact hinv
    | host e =>
      cases h
      exact hostEventsKeepInv e s ih

/-- Settles O53: SC = 0 is a control state that occurs with every other reset value. -/
theorem constructedMachineMeetsInv : Obligations.ConstructedMachineMeetsInv := by
  unfold Obligations.ConstructedMachineMeetsInv
  have hstart (c : Config) (image : Memory) (hc : c.wf = true) (hm : Memory.wf image = true) (h0 : c.reset.SC = .t0) :
      Invariants (construct c image) := ⟨controlOk_of_t0 h0, hm, hc⟩
  exact ⟨hstart defaultConfig [] rfl rfl rfl, hstart⟩

end Sys2Proof.Machine
end

section
/-! PROOFS. Whole instructions as runs of T-states (41_sequencer.md sections 1, 7 and 8), under every host schedule. -/

namespace Sys2Proof.Machine

/-! ## One T-state with what the host does before it -/

/-- The state in which the coming T-state runs: after the host's due events, with BUSREC cleared. -/
def begun (s : State) : State := beginCycle (hostDue s)

@[simp] theorem begun_I (s : State) : (begun s).I = s.I := hostDue_I s
@[simp] theorem begun_S (s : State) : (begun s).S = s.S := hostDue_S s
@[simp] theorem begun_R (s : State) : (begun s).R = s.R := hostDue_R s
@[simp] theorem begun_SC (s : State) : (begun s).SC = s.SC := hostDue_SC s
@[simp] theorem begun_CUR (s : State) : (begun s).CUR = s.CUR := hostDue_CUR s
@[simp] theorem begun_cfg (s : State) : (begun s).cfg = s.cfg := hostDue_cfg s

/-- The host does nothing before the coming T-state. -/
theorem begun_idle {s : State} (h : s.hostEvents.headD [] = []) :
    begun s = { s with BUSREC := none, hostEvents := s.hostEvents.tail } := by
  cases hs : s.hostEvents with
  | nil => simp [begun, beginCycle, hs]
  | cons es rest =>
    obtain rfl : es = [] := by simpa [hs] using h
    simp [begun, hostDue_cons hs, applyHostAll, beginCycle]

theorem begun_quiet {s : State} (h : s.hostEvents = []) : begun s = { s with BUSREC := none } := by
  rw [begun, hostDue_quiet h]
  rfl

/-- One host event is due before the coming T-state. -/
theorem begun_event {s : State} {e : HostEvent} {rest : List (List HostEvent)} (h : s.hostEvents = [e] :: rest) :
    begun s = beginCycle (applyHost e { s with hostEvents := rest }) := by
  rw [begun, hostDue_cons h]
  rfl

/-- An execute state that is not the last one. -/
def advanced (s : State) : State := advance (transfers (begun s))

/-- An execute state that completes. -/
def completed (s : State) : State := complete (transfers (begun s))

@[simp] theorem advanced_R (s : State) : (advanced s).R = s.R := by simp [advanced]
@[simp] theorem advanced_SC (s : State) : (advanced s).SC = nextSC s.SC := by simp [advanced]
@[simp] theorem advanced_CUR (s : State) : (advanced s).CUR = s.CUR := by simp [advanced]
@[simp] theorem advanced_cfg (s : State) : (advanced s).cfg = s.cfg := by simp [advanced]
@[simp] theorem completed_SC (s : State) : (completed s).SC = .t0 := rfl
@[simp] theorem completed_R (s : State) : (completed s).R = interruptRequest (completed s) := rfl
@[simp] theorem completed_CUR (s : State) : (completed s).CUR = s.CUR := by simp [completed]

theorem advanced_S {s : State} (h : s.CUR ≠ some .HLT) : (advanced s).S = s.S := by
  have hT : (transfers (begun s)).S = (begun s).S := transfers_S fun ⟨_, hc⟩ => h (by simpa using hc)
  simpa [advanced] using hT

theorem completed_S {s : State} (h : s.CUR ≠ some .HLT) : (completed s).S = s.S := by
  have hT : (transfers (begun s)).S = (begun s).S := transfers_S fun ⟨_, hc⟩ => h (by simpa using hc)
  simpa [completed] using hT

/-- Before its last T-state no instruction is HLT. -/
theorem ne_hlt_of_lt_last {s : State} (h3 : 3 ≤ s.SC.toNat) (hl : s.SC.toNat < (lastSC s.cfg s.CUR).toNat) :
    s.CUR ≠ some .HLT := by
  intro hc
  have hlast : (lastSC s.cfg s.CUR).toNat = 3 := by rw [hc]; rfl
  omega

theorem advanced_SC_toNat {s : State} (hl : s.SC.toNat < (lastSC s.cfg s.CUR).toNat) :
    (advanced s).SC.toNat = s.SC.toNat + 1 := by
  have hlast := SC.toNat_le_six (lastSC s.cfg s.CUR)
  rw [advanced_SC, nextSC_toNat (by omega)]

theorem advanced_SC_ne_t0 {s : State} (hl : s.SC.toNat < (lastSC s.cfg s.CUR).toNat) : (advanced s).SC ≠ .t0 := by
  have hlast := SC.toNat_le_six (lastSC s.cfg s.CUR)
  rw [advanced_SC]
  exact nextSC_ne_t0 (by omega)

theorem executeState_begun {s : State} (h3 : 3 ≤ s.SC.toNat) :
    executeState (begun s) = sequenced (lastSC s.cfg s.CUR) (begun s) (transfers (begun s)) := by
  rw [executeState_eq (by simpa using h3), begun_cfg, begun_CUR]

theorem executeState_begun_advances {s : State} (h3 : 3 ≤ s.SC.toNat)
    (hl : s.SC.toNat < (lastSC s.cfg s.CUR).toNat) : executeState (begun s) = .next (advanced s) := by
  rw [executeState_begun h3, sequenced_advance (by simpa using hl), advanced]

theorem executeState_begun_completes {s : State} (h3 : 3 ≤ s.SC.toNat) (hl : s.SC = lastSC s.cfg s.CUR) :
    executeState (begun s) = .next (completed s) := by
  rw [executeState_begun h3, sequenced_complete (by simpa using hl), completed]

/-! ## Running to the last T-state -/

/-- `k` T-states that advance and one that completes, for T-state functions that are `executeState` of the
instruction `c`. -/
theorem runStates_eq {micro : State → Result} {c : Option Mnemonic} (hmicro : ∀ t, t.CUR = c → micro t = executeState t)
    {k n : Nat} {s : State} (hc : s.CUR = c) (h3 : 3 ≤ s.SC.toNat) (hk : s.SC.toNat + k = (lastSC s.cfg s.CUR).toNat)
    (hn : k < n) : runStates micro n s = .next (completed (advanced^[k] s)) := by
  induction k generalizing n s with
  | zero =>
    obtain ⟨n, rfl⟩ : ∃ m, n = m + 1 := ⟨n - 1, by omega⟩
    refine runStates_done ?_ (completed_SC s)
    exact (hmicro (begun s) (by simpa using hc)).trans (executeState_begun_completes h3 (SC.eq_of_toNat_eq hk))
  | succ k ih =>
    obtain ⟨n, rfl⟩ : ∃ m, n = m + 1 := ⟨n - 1, by omega⟩
    have hl : s.SC.toNat < (lastSC s.cfg s.CUR).toNat := by omega
    have hSC := advanced_SC_toNat hl
    have hstep := (hmicro (begun s) (by simpa using hc)).trans (executeState_begun_advances h3 hl)
    rw [runStates_more hstep (advanced_SC_ne_t0 hl), Function.iterate_succ_apply]
    exact ih (by simpa using hc) (by omega) (by rw [hSC, advanced_cfg, advanced_CUR]; omega) (by omega)

/-- How many T-states of an instruction or an undecodable word come between T3 and its last one. -/
def advances (c : Config) (m : Option Mnemonic) : Nat := (lastSC c m).toNat - 3

/-- The execute states from T3 on: what every instruction's run of its own T-state function is. -/
theorem runStates_from_t3 {micro : State → Result} {c : Option Mnemonic}
    (hmicro : ∀ t, t.CUR = c → micro t = executeState t) {n : Nat} {s : State} (hc : s.CUR = c) (hsc : s.SC = .t3)
    (hlast : 3 ≤ (lastSC s.cfg c).toNat) (hn : advances s.cfg c < n) :
    runStates micro n s = .next (completed (advanced^[advances s.cfg c] s)) := by
  have h3 : s.SC.toNat = 3 := by rw [hsc]; rfl
  refine runStates_eq hmicro hc h3.ge ?_ hn
  rw [h3, hc, advances]
  omega

/-- R119: every instruction from its T2 latches to its completion, from every state and under every host schedule. -/
theorem exec_eq (i : Instr) (s : State) :
    exec i s = .next (completed (advanced^[advances s.cfg (some (mnemonicOf i))] (latchInstr i s))) := by
  have run {micro : State → Result} {n : Nat} (hmicro : ∀ t, t.CUR = some (mnemonicOf i) → micro t = executeState t)
      (hn : advances s.cfg (some (mnemonicOf i)) < n) :
      runStates micro n (latchInstr i s) =
        .next (completed (advanced^[advances s.cfg (some (mnemonicOf i))] (latchInstr i s))) :=
    runStates_from_t3 (s := latchInstr i s) hmicro rfl rfl (three_le_lastSC_some s.cfg _) hn
  cases i <;> exact run (fun t hc => by simp only [executeState, hc, mnemonicOf])
    (by simp [advances, lastSC, mnemonicOf, SC.toNat])

/-- R118: an undecodable word's idle T-states. -/
theorem runUndecodable_eq {s : State} (hwf : s.cfg.wf = true) (w : Word) :
    runUndecodable w s = .next (completed (advanced^[advances s.cfg none] (latchWord w none s))) := by
  have hlast := SC.toNat_le_six (lastSC s.cfg none)
  exact runStates_from_t3 (s := latchWord w none s) (fun t hc => by simp only [executeState, hc]) rfl rfl
    (three_le_lastSC hwf none) (by simp only [advances, latchWord_cfg]; omega)

/-! ## What a run keeps -/

theorem advanced_iterate_CUR (k : Nat) (s : State) : (advanced^[k] s).CUR = s.CUR := by
  induction k generalizing s with
  | zero => rfl
  | succ k ih => rw [Function.iterate_succ_apply, ih, advanced_CUR]

theorem advanced_iterate_S (k : Nat) {s : State} (h : s.CUR ≠ some .HLT) : (advanced^[k] s).S = s.S := by
  induction k generalizing s with
  | zero => rfl
  | succ k ih => rw [Function.iterate_succ_apply, ih (by simpa using h), advanced_S h]

/-- Settles O21: `exec_eq` names the next state, whose last T-state completes. -/
theorem execAlwaysCompletes : Obligations.ExecAlwaysCompletes := by
  unfold Obligations.ExecAlwaysCompletes
  intro i s
  refine ⟨_, exec_eq i s, rfl, ?_, rfl, fun hi => ?_⟩
  · rw [completed_CUR, advanced_iterate_CUR, latchInstr_CUR]
  · have hc : (latchInstr i s).CUR ≠ some .HLT := by cases i <;> simp [mnemonicOf] at hi ⊢
    rw [completed_S (by rwa [advanced_iterate_CUR]), advanced_iterate_S _ hc, latchInstr_S]

/-! ## Ticks -/

theorem tick_execute {s : State} (hR : s.R = false) (hS : s.S = true) (h3 : 3 ≤ s.SC.toNat) :
    tick s = executeState (begun s) := by
  rw [tick_running hR hS]
  exact instructionState_execute (by simpa using h3)

theorem runTicks_done {n : Nat} {s t : State} (h : tick s = .next t) (hd : t.SC = .t0 ∨ ended t = true) :
    runTicks (n + 1) s = .next t := by
  simp [runTicks, h, hd]

theorem runTicks_more {n : Nat} {s t : State} (h : tick s = .next t) (hd : t.SC ≠ .t0) (he : ended t = false) :
    runTicks (n + 1) s = runTicks n t := by
  simp [runTicks, h, hd, he]

theorem ended_of_S {s : State} (h : s.S = true) : ended s = false := by simp [ended, h]

theorem ended_of_R {s : State} (h : s.R = true) : ended s = false := by simp [ended, h]

/-- Ticks and T-states are one run as long as each tick is the T-state (`P` says when) and the run does not end in
between. -/
theorem runTicks_eq_runStates {micro : State → Result} {P : State → Prop} (hmicro : ∀ s, P s → tick s = micro (begun s))
    (hkeep : ∀ s t, P s → micro (begun s) = .next t → t.SC ≠ .t0 → ended t = false ∧ P t) {n : Nat} {s : State}
    (h : P s) : runTicks n s = runStates micro n s := by
  induction n generalizing s with
  | zero => rfl
  | succ n ih =>
    have htick := hmicro s h
    cases hm : micro (begun s) with
    | fault r => simp only [runTicks, htick, hm, runStates, show micro (beginCycle (hostDue s)) = _ from hm]
    | refused r => simp only [runTicks, htick, hm, runStates, show micro (beginCycle (hostDue s)) = _ from hm]
    | next t =>
      by_cases h0 : t.SC = .t0
      · rw [runTicks_done (htick.trans hm) (.inl h0), runStates_done hm h0]
      · obtain ⟨he, ht⟩ := hkeep s t h hm h0
        rw [runTicks_more (htick.trans hm) h0 he, runStates_more hm h0, ih ht]

/-- The ticks of a running machine from T3 on are its execute states. -/
theorem runTicks_execute {micro : State → Result} {c : Option Mnemonic}
    (hmicro : ∀ t, t.CUR = c → micro t = executeState t) {n : Nat} {s : State} (hc : s.CUR = c) (hR : s.R = false)
    (hS : s.S = true) (h3 : 3 ≤ s.SC.toNat) : runTicks n s = runStates micro n s := by
  refine runTicks_eq_runStates (P := fun t => t.CUR = c ∧ t.R = false ∧ t.S = true ∧ 3 ≤ t.SC.toNat) ?_ ?_
    ⟨hc, hR, hS, h3⟩
  · rintro t ⟨hc, hR, hS, h3⟩
    exact (tick_execute hR hS h3).trans (hmicro _ (by simpa using hc)).symm
  · rintro t u ⟨hc, hR, hS, h3⟩ ht h0
    rw [hmicro _ (by simpa using hc), executeState_begun h3] at ht
    obtain ⟨-, rfl⟩ | ⟨hl, rfl⟩ := sequenced_cases ht
    · exact absurd rfl h0
    · have hl' : t.SC.toNat < (lastSC t.cfg t.CUR).toNat := by simpa using hl
      have hSC := advanced_SC_toNat hl'
      have hSt : (advanced t).S = true := (advanced_S (ne_hlt_of_lt_last h3 hl')).trans hS
      exact ⟨ended_of_S hSt, (advanced_CUR t).trans hc, (advanced_R t).trans hR, hSt, by
        rw [advanced] at hSC
        omega⟩

/-- A tick ends at SC = 0, ends the run or moves the counter to its successor. -/
theorem tick_SC {s t : State} (h : tick s = .next t) :
    t.SC = .t0 ∨ ended t = true ∨ t.SC.toNat = s.SC.toNat + 1 := by
  cases cycle_move h with
  | rt0 _ hsc => simp [interruptRT0_eq, show s.SC = .t0 by simpa using hsc, SC.toNat]
  | rt1 _ hsc => simp [interruptRT1_eq, show s.SC = .t1 by simpa using hsc, SC.toNat]
  | rt2 => exact .inl rfl
  | halted hR hS => exact .inr (.inl (by simp only [ended, hR, hS]; rfl))
  | t0 _ _ hsc => simp [fetchT0_eq, show s.SC = .t0 by simpa using hsc, SC.toNat]
  | t1 _ _ hsc => simp [fetchT1_eq, show s.SC = .t1 by simpa using hsc, SC.toNat]
  | t2 _ _ hsc => simp [decodeT2, show s.SC = .t2 by simpa using hsc, SC.toNat]
  | advances _ _ _ hl => exact .inr (.inr (advanced_SC_toNat (by simpa using hl)))
  | completes => exact .inl rfl

/-- SC is at most 6, so `7 - SC` ticks are enough and more make no difference. -/
theorem runTicks_enough {n : Nat} {s : State} (h : 7 ≤ n + s.SC.toNat) : runTicks (n + 1) s = runTicks n s := by
  induction n generalizing s with
  | zero =>
    have := SC.toNat_le_six s.SC
    omega
  | succ n ih =>
    cases ht : tick s with
    | fault r => simp only [runTicks, ht]
    | refused r => simp only [runTicks, ht]
    | next t =>
      by_cases hd : t.SC = .t0 ∨ ended t = true
      · rw [runTicks_done ht hd, runTicks_done ht hd]
      · obtain ⟨h0, he⟩ := not_or.1 hd
        have he' : ended t = false := by simpa using he
        have hSC : t.SC.toNat = s.SC.toNat + 1 := by
          rcases tick_SC ht with h | h | h
          exacts [absurd h h0, absurd h he, h]
        rw [runTicks_more ht h0 he', runTicks_more ht h0 he', ih (by omega)]

theorem runTicks_of_le {m n : Nat} {s : State} (h : 7 ≤ n + s.SC.toNat) (hmn : n ≤ m) :
    runTicks m s = runTicks n s := by
  induction m, hmn using Nat.le_induction with
  | base => rfl
  | succ m hm ih => rw [runTicks_enough (by omega), ih]

/-! ## The interrupt cycle -/

theorem runTicks_interrupt {n : Nat} {s : State} (hR : s.R = true) : runTicks n s = runStates interruptState n s := by
  refine runTicks_eq_runStates (P := fun t => t.R = true) (fun t hR => tick_interrupt hR) (fun t u hR ht h0 => ?_) hR
  have hRu : u.R = true := by
    obtain ⟨-, rfl⟩ | ⟨-, rfl⟩ | ⟨-, rfl⟩ := interruptState_cases ht
    · simpa [interruptRT0_eq] using hR
    · simpa [interruptRT1_eq] using hR
    · exact absurd rfl h0
  exact ⟨ended_of_R hRu, hRu⟩

theorem runStates_interrupt_t2 {s : State} (hsc : s.SC = .t2) (n : Nat) :
    runStates interruptState (n + 1) s = .next (interruptRT2 (begun s)) :=
  runStates_done (by simp [interruptState, hsc, begun]) rfl

theorem runStates_interrupt_t1 {s : State} (hsc : s.SC = .t1) (n : Nat) :
    runStates interruptState (n + 2) s = .next (interruptRT2 (begun (interruptRT1 (begun s)))) := by
  rw [runStates_more (t := interruptRT1 (begun s)) (by simp [interruptState, hsc, begun]) (by simp [interruptRT1])]
  exact runStates_interrupt_t2 rfl n

theorem runStates_interrupt_t0 {s : State} (hsc : s.SC = .t0) (n : Nat) :
    runStates interruptState (n + 3) s =
      .next (interruptRT2 (begun (interruptRT1 (begun (interruptRT0 (begun s)))))) := by
  rw [runStates_more (t := interruptRT0 (begun s)) (by simp [interruptState, hsc, begun]) (by simp [interruptRT0])]
  exact runStates_interrupt_t1 rfl n

/-- The interrupt cycle ends within its three T-states, or its control state is refused at once. -/
theorem takeInterrupt_eq_runTicks {s : State} (hR : s.R = true) : takeInterrupt s = runTicks 7 s := by
  rw [runTicks_interrupt hR, takeInterrupt]
  cases hsc : s.SC with
  | t0 => rw [runStates_interrupt_t0 hsc, runStates_interrupt_t0 hsc]
  | t1 => rw [runStates_interrupt_t1 hsc, runStates_interrupt_t1 hsc]
  | t2 => rw [runStates_interrupt_t2 hsc, runStates_interrupt_t2 hsc]
  | t3 | t4 | t5 | t6 => simp [runStates, interruptState, hsc]

/-! ## The fetch as ticks -/

@[simp] theorem fetchT0_R (s : State) : (fetchT0 s).R = s.R := by simp [fetchT0]
@[simp] theorem fetchT0_S (s : State) : (fetchT0 s).S = s.S := by simp [fetchT0]
@[simp] theorem fetchT0_SC (s : State) : (fetchT0 s).SC = .t1 := rfl
@[simp] theorem fetchT1_R (s : State) : (fetchT1 s).R = s.R := by simp [fetchT1_eq]
@[simp] theorem fetchT1_S (s : State) : (fetchT1 s).S = s.S := by simp [fetchT1_eq]
@[simp] theorem fetchT1_SC (s : State) : (fetchT1 s).SC = .t2 := rfl

section
variable {s : State} (hR : s.R = false) (hS : s.S = true)

include hR hS

theorem tick_t0 (hsc : s.SC = .t0) : tick s = .next (fetchT0 (begun s)) := by
  simp [tick_running hR hS, instructionState, hsc, begun]

theorem tick_t1 (hsc : s.SC = .t1) : tick s = .next (fetchT1 (begun s)) := by
  simp [tick_running hR hS, instructionState, hsc, begun]

theorem tick_t2 (hsc : s.SC = .t2) : tick s = .next (decodeT2 (begun s)) := by
  simp [tick_running hR hS, instructionState, hsc, begun]

end

/-- What T2 leaves: the latches of the fetched word. -/
def decoded (s : State) : State := latchWord (fetch s).IR (currentOf s.cfg.opc (fetch s).IR) (fetch s)

@[simp] theorem decoded_R (s : State) : (decoded s).R = s.R := by simp [decoded]
@[simp] theorem decoded_S (s : State) : (decoded s).S = s.S := by simp [decoded]
@[simp] theorem decoded_SC (s : State) : (decoded s).SC = .t3 := by simp [decoded]
@[simp] theorem decoded_cfg (s : State) : (decoded s).cfg = s.cfg := by simp [decoded]

theorem decodeT2_fetch (s : State) : decodeT2 (begun (fetchT1 (begun (fetchT0 (begun s))))) = decoded s := by
  simp [decoded, fetch, decodeT2, latchWord, begun, beginCycle, fetchT1_eq, fetchT0_eq]

/-- T0, T1 and T2 of a running machine: the fetch, then the latches of the fetched word. -/
theorem runTicks_fetch {s : State} (hR : s.R = false) (hS : s.S = true) (hsc : s.SC = .t0) (n : Nat) :
    runTicks (n + 3) s = runTicks n (decoded s) := by
  have hT1 := tick_t1 (s := fetchT0 (begun s)) (by simpa using hR) (by simpa using hS) rfl
  have hT2 := tick_t2 (s := fetchT1 (begun (fetchT0 (begun s)))) (by simpa using hR) (by simpa using hS) rfl
  rw [decodeT2_fetch] at hT2
  rw [runTicks_more (tick_t0 hR hS hsc) (by simp) (ended_of_S (by simpa using hS)),
    runTicks_more hT1 (by simp) (ended_of_S (by simpa using hS)),
    runTicks_more hT2 (by simp) (ended_of_S (by simpa using hS))]

/-- T2 of a word that decodes latches its instruction. -/
theorem latchWord_of_decode {s : State} {w : Word} {i : Instr} (h : decode s.cfg.opc w = .ok i) :
    latchWord w (currentOf s.cfg.opc w) s = latchInstr i s := by
  rw [latchInstr, encode_of_decode h, currentOf, h]

theorem currentOf_error {o : OpcodeTable} {w : Word} {r : Reject} (h : decode o w = .error r) :
    currentOf o w = none := by
  rw [currentOf, h]

/-- Four ticks from T3 are the whole execution of the fetched word. -/
theorem runFetched_eq_runTicks {s : State} (hR : s.R = false) (hS : s.S = true) :
    runFetched s = runTicks 4 (latchWord s.IR (currentOf s.cfg.opc s.IR) s) := by
  unfold runFetched
  cases hd : decode s.cfg.opc s.IR with
  | ok i =>
    have hlast := SC.toNat_le_six (lastSC s.cfg (some (mnemonicOf i)))
    have h3 := three_le_lastSC_some s.cfg (mnemonicOf i)
    rw [latchWord_of_decode hd]
    refine (exec_eq i s).trans (Eq.symm ?_)
    rw [runTicks_execute (micro := executeState) (c := some (mnemonicOf i)) (fun _ _ => rfl) rfl (by simpa using hR)
        (by simpa using hS) (by simp [SC.toNat]),
      runStates_from_t3 (c := some (mnemonicOf i)) (s := latchInstr i s) (fun _ _ => rfl) rfl rfl h3
        (by simp only [advances, latchInstr_cfg]; omega)]
    rfl
  | error r =>
    rw [currentOf_error hd]
    exact (runTicks_execute (micro := idleState) (c := none) (fun t hc => by simp only [executeState, hc]) rfl
      (by simpa using hR) (by simpa using hS) (by simp [SC.toNat])).symm

/-- Settles O20: the interrupt cycle, the fetch and execution, the rest of an instruction and the halted machine are each
the same ticks. -/
theorem stepIsTheCyclesToTheBoundary : Obligations.StepIsTheCyclesToTheBoundary := by
  unfold Obligations.StepIsTheCyclesToTheBoundary
  intro s
  cases hR : s.R with
  | true => simpa [step, hR] using takeInterrupt_eq_runTicks hR
  | false =>
    cases hS : s.S with
    | false =>
      have ht := tick_halted hR hS
      rw [runTicks_done ht (.inr (by simp [ended, hR, hS])), ← ht]
      simp [step, hR, hS]
    | true =>
      cases hsc : s.SC with
      | t0 =>
        rw [runTicks_fetch hR hS hsc, decoded, ← fetch_cfg s,
          ← runFetched_eq_runTicks (by simpa using hR) (by simpa using hS)]
        simp [step, hR, hS, hsc]
      | t1 | t2 | t3 | t4 | t5 | t6 =>
        have hlast := SC.toNat_le_six s.SC
        rw [runTicks_of_le (n := 7 - s.SC.toNat) (by omega) (by omega)]
        simp [step, hR, hS, hsc, SC.toNat]

end Sys2Proof.Machine
end

section
/-! PROOFS. Steps (41_sequencer.md sections 6 to 8, 70_reset_and_hazards.md sections 1 and 5): what a step runs, how long it
takes, and that it keeps the invariants. -/

namespace Sys2Proof.Machine

/-! ## The fetch with a quiet host -/

theorem fetch_quiet {s : State} (h : s.hostEvents = []) :
    fetch s = { s with
      AR := s.PC
      IR := memRead s.M s.PC
      PC := s.PC + 1
      SC := .t2
      MLATCH := memRead s.M s.PC
      BUSREC := some ⟨.MEM, .IR, memRead s.M s.PC⟩ } := by
  simp [fetch, fetchT0_eq, fetchT1_eq, beginCycle, hostDue_quiet, h]

theorem fetch_quiet_IR {s : State} (h : s.hostEvents = []) : (fetch s).IR = memRead s.M s.PC := by
  rw [fetch_quiet h]

theorem step_boundary {s : State} (hR : s.R = false) (hS : s.S = true) (hsc : s.SC = .t0) :
    step s = runFetched (fetch s) := by
  simp [step, hR, hS, hsc]

theorem step_runs_exec {s : State} {i : Instr} (hR : s.R = false) (hS : s.S = true) (hsc : s.SC = .t0)
    (hd : decode s.cfg.opc (fetch s).IR = .ok i) : step s = exec i (fetch s) := by
  rw [step_boundary hR hS hsc]
  simp [runFetched, hd]

/-- Settles O18: the decoder's answer on the fetched word, and the equation of a quiet fetch. -/
theorem stepRunsDecodedInstruction : Obligations.StepRunsDecodedInstruction := fun _ _ hR hS hsc =>
  ⟨step_runs_exec hR hS hsc, fetch_quiet⟩

/-- Settles O60: a constructed machine is quiet and running at PC = 0. -/
theorem firstInstructionIsAtAddressZero : Obligations.FirstInstructionIsAtAddressZero := by
  unfold Obligations.FirstInstructionIsAtAddressZero
  intro c image i hreset hd
  have hf := fetch_quiet (construct_hostEvents c image)
  have hPC : (construct c image).PC = 0 := by simp [hreset, defaultReset]
  have hIR : (fetch (construct c image)).IR = memRead image 0 := by rw [hf, hPC]; rfl
  refine ⟨fetch (construct c image), step_runs_exec (by simp [hreset, defaultReset]) (by simp [hreset, defaultReset])
    (by simp [hreset, defaultReset]) (by rw [hIR]; exact hd), ?_, ?_, ?_, hIR, ?_, ?_, ?_, ?_⟩ <;>
    rw [hf] <;> simp [hreset, defaultReset]

/-! ## The undecodable word -/

theorem transfers_none {s : State} (h : s.CUR = none) : transfers s = s :=
  transfers_cases (P := fun t => t = s) s (fun _ => by rw [h]; rfl) (fun _ => by rw [h]; rfl) (fun _ => by rw [h]; rfl)
    (fun _ => by rw [h]; rfl) rfl

/-- Idle T-states leave nothing but the completion's writes. -/
theorem completed_idle (k : Nat) {s : State} (hc : s.CUR = none) (hq : s.hostEvents = []) :
    completed (advanced^[k] s) = { s with SC := .t0, R := s.IEN && (s.FGI || s.FGO), BUSREC := none } := by
  induction k generalizing s with
  | zero =>
    rw [Function.iterate_zero_apply, completed, transfers_none (by simpa using hc), begun_quiet hq]
    rfl
  | succ k ih =>
    have hadv : advanced s = { s with SC := nextSC s.SC, BUSREC := none } := by
      rw [advanced, transfers_none (by simpa using hc), begun_quiet hq]
      rfl
    rw [Function.iterate_succ_apply, ih (by simpa using hc) (by rw [hadv]; exact hq), hadv]

/-- Settles O19: the fetch's equation, then idle T-states up to the completion. -/
theorem stepOnUndecodableWordOnlyAdvancesPC : Obligations.StepOnUndecodableWordOnlyAdvancesPC := by
  unfold Obligations.StepOnUndecodableWordOnlyAdvancesPC
  intro s hR hS hsc hq hwf hd
  have hIR := fetch_quiet_IR hq
  have hrun : step s = runUndecodable (memRead s.M s.PC) (fetch s) := by
    rw [step_boundary hR hS hsc]
    simp [runFetched, hIR, hd]
  have hqf : (latchWord (memRead s.M s.PC) none (fetch s)).hostEvents = [] := by simp [fetch_quiet hq, hq]
  rw [hrun, runUndecodable_eq (by simpa using hwf), completed_idle _ rfl hqf, fetch_quiet hq]
  simp [latchWord, hsc]

/-! ## How many cycles an instruction takes -/

theorem ticksToBoundary_done {n : Nat} {s t : State} (h : tick s = .next t) (h0 : t.SC = .t0) :
    ticksToBoundary (n + 1) s = some 1 := by
  simp [ticksToBoundary, h, h0]

theorem ticksToBoundary_more {n k : Nat} {s t : State} (h : tick s = .next t) (h0 : t.SC ≠ .t0)
    (hk : ticksToBoundary n t = some k) : ticksToBoundary (n + 1) s = some (k + 1) := by
  simp [ticksToBoundary, h, h0, hk]

/-- From T3 on, one tick per T-state up to the last one. -/
theorem ticksToBoundary_execute {k n : Nat} {s : State} (hR : s.R = false) (hS : s.S = true) (h3 : 3 ≤ s.SC.toNat)
    (hk : s.SC.toNat + k = (lastSC s.cfg s.CUR).toNat) (hn : k < n) : ticksToBoundary n s = some (k + 1) := by
  obtain ⟨n, rfl⟩ : ∃ m, n = m + 1 := ⟨n - 1, by omega⟩
  have htick := tick_execute hR hS h3
  induction k generalizing n s with
  | zero => exact ticksToBoundary_done (htick.trans (executeState_begun_completes h3 (SC.eq_of_toNat_eq hk))) rfl
  | succ k ih =>
    obtain ⟨n, rfl⟩ : ∃ m, n = m + 1 := ⟨n - 1, by omega⟩
    have hl : s.SC.toNat < (lastSC s.cfg s.CUR).toNat := by omega
    have hSC := advanced_SC_toNat hl
    have hRt : (advanced s).R = false := by simpa using hR
    have hSt : (advanced s).S = true := (advanced_S (ne_hlt_of_lt_last h3 hl)).trans hS
    refine ticksToBoundary_more (htick.trans (executeState_begun_advances h3 hl)) (advanced_SC_ne_t0 hl) ?_
    exact ih hRt hSt (by omega) (by rw [hSC, advanced_cfg, advanced_CUR]; omega) n (by omega)
      (tick_execute hRt hSt (by omega))

/-- R119: three cycles of fetch and decode, then one for each T-state from T3 to the last. -/
theorem ticksToBoundary_instruction {s : State} (hR : s.R = false) (hS : s.S = true) (hsc : s.SC = .t0)
    (hlast : 3 ≤ (lastSC s.cfg (decoded s).CUR).toNat) :
    ticksToBoundary 7 s = some ((lastSC s.cfg (decoded s).CUR).toNat + 1) := by
  have hT1 := tick_t1 (s := fetchT0 (begun s)) (by simpa using hR) (by simpa using hS) rfl
  have hT2 := tick_t2 (s := fetchT1 (begun (fetchT0 (begun s)))) (by simpa using hR) (by simpa using hS) rfl
  rw [decodeT2_fetch] at hT2
  have h6 := SC.toNat_le_six (lastSC s.cfg (decoded s).CUR)
  have hT3 : (decoded s).SC.toNat = 3 := by rw [decoded_SC]; rfl
  have hrest : ticksToBoundary 4 (decoded s) = some ((lastSC s.cfg (decoded s).CUR).toNat - 3 + 1) :=
    ticksToBoundary_execute (by simpa using hR) (by simpa using hS) hT3.ge (by rw [hT3, decoded_cfg]; omega)
      (by omega)
  have hall := ticksToBoundary_more (tick_t0 hR hS hsc) (by simp)
    (ticksToBoundary_more hT1 (by simp) (ticksToBoundary_more hT2 (by simp) hrest))
  rw [hall]
  congr 1
  omega

/-- Settles O17: `lastSC` plus one, with CUR the fetched word's. -/
theorem cyclesPerInstruction : Obligations.CyclesPerInstruction := by
  unfold Obligations.CyclesPerInstruction
  intro s hR hS hsc hq
  have hCUR : (decoded s).CUR = currentOf s.cfg.opc (memRead s.M s.PC) := by
    simp [decoded, fetch_quiet_IR hq]
  refine ⟨fun i hd => ?_, fun hd hwf => ?_⟩
  · have hi : (decoded s).CUR = some (mnemonicOf i) := by rw [hCUR, currentOf, hd]
    have hlast : 3 ≤ (lastSC s.cfg (decoded s).CUR).toNat := hi ▸ three_le_lastSC_some s.cfg (mnemonicOf i)
    rw [ticksToBoundary_instruction hR hS hsc hlast, hi]
    cases i <;> rfl
  · rw [ticksToBoundary_instruction hR hS hsc (three_le_lastSC hwf _), hCUR, currentOf_error hd]
    rfl

/-! ## Steps keep the invariants -/

theorem hostDue_invariants {s : State} (hs : Invariants s) : Invariants (hostDue s) :=
  ⟨(hostDue_sameControl s).controlOk_eq.trans hs.control, hostDue_memory_wf s hs.memory,
    (hostDue_cfg s).symm ▸ hs.config⟩

theorem tick_keeps_invariants {s : State} (hs : Invariants s) : ∃ t, tick s = .next t ∧ Invariants t :=
  cycleNeverFailsAndKeepsInv (hostDue s) (hostDue_invariants hs)

/-- Each tick that does not end the run raises SC, which is at most 6. -/
theorem runTicks_keeps_invariants {n : Nat} {s : State} (hs : Invariants s) (hn : 7 ≤ n + s.SC.toNat) :
    ∃ t, runTicks n s = .next t ∧ t.SC = .t0 ∧ Invariants t := by
  induction n generalizing s with
  | zero =>
    have := SC.toNat_le_six s.SC
    omega
  | succ n ih =>
    obtain ⟨t, ht, hinv⟩ := tick_keeps_invariants hs
    by_cases h0 : t.SC = .t0
    · exact ⟨t, runTicks_done ht (.inl h0), h0, hinv⟩
    · have he : ended t = false := by
        by_contra he
        have hRS : t.S = false ∧ t.R = false := by simpa [ended] using he
        exact h0 (controlOk_halted hinv.control hRS.2 hRS.1)
      have hSC : t.SC.toNat = s.SC.toNat + 1 := by
        rcases tick_SC ht with h | h | h
        exacts [absurd h h0, absurd h (by simp [he]), h]
      rw [runTicks_more ht h0 he]
      exact ih hinv (by omega)

/-- Settles O58: a step is its ticks, and seven are enough. -/
theorem stepNeverFailsAndEndsAtBoundary : Obligations.StepNeverFailsAndEndsAtBoundary := by
  unfold Obligations.StepNeverFailsAndEndsAtBoundary
  intro s hs
  rw [stepIsTheCyclesToTheBoundary s]
  exact runTicks_keeps_invariants hs (by omega)

/-- Settles O57: the one state that a step answers is that of O58. -/
theorem stepKeepsInv : Obligations.StepKeepsInv := by
  unfold Obligations.StepKeepsInv
  intro s t hs h
  obtain ⟨u, hu, -, hinv⟩ := stepNeverFailsAndEndsAtBoundary s hs
  cases h.symm.trans hu
  exact hinv

/-! ## The end of a run -/

theorem step_ended {s : State} (hS : s.S = false) (hR : s.R = false) : step s = .next (hostDue s) := by
  simpa [step, hR, hS] using tick_halted hR hS

theorem core_run_succ (k : Nat) {s t : State} (h : step s = .next t) :
    Host.Core.run Sys2Proof.core (k + 1) s = Host.Core.run Sys2Proof.core k t := by
  have hcore : Sys2Proof.core.step s = .next t := h
  simp only [Host.Core.run, hcore]

/-- Settles O59: each step of an ended machine is what the host does, which writes none of the four. -/
theorem endedMachineNeverStepsAgain : Obligations.EndedMachineNeverStepsAgain := by
  unfold Obligations.EndedMachineNeverStepsAgain
  intro s k hS hR
  induction k generalizing s with
  | zero => exact ⟨s, rfl, hS, hR, rfl, rfl, fun _ => rfl⟩
  | succ k ih =>
    obtain ⟨t, ht, htS, htR, htSC, htCUR, htq⟩ := ih (hostDue s) (by simpa using hS) (by simpa using hR)
    refine ⟨t, (core_run_succ k (step_ended hS hR)).trans ht, htS, htR, by simpa using htSC, by simpa using htCUR,
      fun hq => ?_⟩
    rw [hostDue_quiet hq] at htq
    exact htq hq

end Sys2Proof.Machine
end

section
/-! PROOFS. What each instruction does as a whole (42_memory_reference.md, 43_register_reference.md, 44_io_reference.md):
its T-states in closed form under every host schedule, and the next state with a quiet host. -/

namespace Sys2Proof.Machine

/-! ## Closed forms under every host schedule -/

/-- A format-X instruction is its T3. -/
theorem exec_formatX {i : Instr} (hi : i.isMemRef = false) (s : State) :
    exec i s = .next (complete (transfersT3 (some (mnemonicOf i)) (begun (latchInstr i s)))) := by
  have hadv : advances s.cfg (some (mnemonicOf i)) = 0 := by rw [advances, lastSC_formatX hi]; rfl
  rw [exec_eq, hadv, Function.iterate_zero_apply, completed, transfers_t3 (by simp), begun_CUR, latchInstr_CUR]

/-- After T3 of a memory-reference instruction: AR holds the effective address. -/
def addressed (i : Instr) (s : State) : State := advance (fetchAddress (begun (latchInstr i s)))

@[simp] theorem addressed_SC (i : Instr) (s : State) : (addressed i s).SC = .t4 := by
  simp [addressed, fetchAddress, nextSC]

@[simp] theorem addressed_CUR (i : Instr) (s : State) : (addressed i s).CUR = some (mnemonicOf i) := by
  simp [addressed, fetchAddress]

@[simp] theorem addressed_hostEvents (i : Instr) (s : State) : (addressed i s).hostEvents = s.hostEvents.tail := by
  simp [addressed, fetchAddress, begun, hostDue_hostEvents]

theorem advanced_latchInstr {i : Instr} (hi : i.isMemRef = true) (s : State) :
    advanced (latchInstr i s) = addressed i s := by
  rw [advanced, transfers_t3 (by simp), transfersT3_memRef _ (by simpa using mnemonicOf_mem_memRefMnemonics hi)]
  rfl

/-- After T4 of AND, ADD, LDA and ISZ: DR holds the operand. -/
def operandFetched (i : Instr) (s : State) : State := advance (fetchOperand (begun (addressed i s)))

@[simp] theorem operandFetched_SC (i : Instr) (s : State) : (operandFetched i s).SC = .t5 := by
  simp [operandFetched, fetchOperand, nextSC]

@[simp] theorem operandFetched_CUR (i : Instr) (s : State) : (operandFetched i s).CUR = some (mnemonicOf i) := by
  simp [operandFetched, fetchOperand]

theorem completed_t4 {s : State} (hsc : s.SC = .t4) : completed s = complete (transfersT4 s.CUR (begun s)) := by
  rw [completed, transfers_t4 (by simpa using hsc), begun_CUR]

theorem completed_t5 {s : State} (hsc : s.SC = .t5) : completed s = complete (transfersT5 s.CUR (begun s)) := by
  rw [completed, transfers_t5 (by simpa using hsc), begun_CUR]

theorem advanced_t4 {s : State} (hsc : s.SC = .t4) : advanced s = advance (transfersT4 s.CUR (begun s)) := by
  rw [advanced, transfers_t4 (by simpa using hsc), begun_CUR]

theorem exec_two {i : Instr} {s : State} (hi : i.isMemRef = true) (hl : lastSC s.cfg (some (mnemonicOf i)) = .t4) :
    exec i s = .next (complete (transfersT4 (some (mnemonicOf i)) (begun (addressed i s)))) := by
  have hadv : advances s.cfg (some (mnemonicOf i)) = 1 := by rw [advances, hl]; rfl
  rw [exec_eq, hadv, Function.iterate_one, advanced_latchInstr hi, completed_t4 (by simp), addressed_CUR]

theorem exec_three {i : Instr} {s : State} (hi : i.isMemRef = true) (hl : lastSC s.cfg (some (mnemonicOf i)) = .t5) :
    exec i s = .next (complete (transfersT5 (some (mnemonicOf i))
      (begun (advance (transfersT4 (some (mnemonicOf i)) (begun (addressed i s))))))) := by
  have hadv : advances s.cfg (some (mnemonicOf i)) = 2 := by rw [advances, hl]; rfl
  rw [exec_eq, hadv, Function.iterate_succ_apply, Function.iterate_one, advanced_latchInstr hi,
    completed_t5 (by simp [nextSC]), advanced_CUR, advanced_t4 (by simp), addressed_CUR]

section
variable (ind : Bool) (a : Addr) (s : State)

theorem exec_and : exec (.and ind a) s =
    .next (complete (aluToAC .AND (some .AC) (some .DR) (begun (operandFetched (.and ind a) s)))) := exec_three rfl rfl

theorem exec_add : exec (.add ind a) s =
    .next (complete (aluToAC .ADD (some .AC) (some .DR) (begun (operandFetched (.add ind a) s)))) := exec_three rfl rfl

theorem exec_lda : exec (.lda ind a) s =
    .next (complete (aluToAC .LDA (some .DR) none (begun (operandFetched (.lda ind a) s)))) := exec_three rfl rfl

theorem exec_sta : exec (.sta ind a) s =
    .next (complete (transfersT4 (some .STA) (begun (addressed (.sta ind a) s)))) := exec_two rfl rfl

theorem exec_bun : exec (.bun ind a) s = .next (complete (jumpToAR (begun (addressed (.bun ind a) s)))) :=
  exec_two rfl rfl

theorem exec_bsa : exec (.bsa ind a) s =
    .next (complete (jumpToAR (begun (advance (transfersT4 (some .BSA) (begun (addressed (.bsa ind a) s))))))) :=
  exec_three rfl rfl

theorem exec_isz : exec (.isz ind a) s =
    .next (complete (transfersT6 (some .ISZ) (begun (advance (transfersT5 (some .ISZ)
      (begun (operandFetched (.isz ind a) s))))))) := by
  have hadv : advances s.cfg (some .ISZ) = 3 := rfl
  have hT4 : advanced (addressed (.isz ind a) s) = operandFetched (.isz ind a) s := by
    rw [advanced_t4 (by simp), addressed_CUR]
    rfl
  have hT5 : advanced (operandFetched (.isz ind a) s) =
      advance (transfersT5 (some .ISZ) (begun (operandFetched (.isz ind a) s))) := by
    rw [advanced, transfers_t5 (by simp), begun_CUR, operandFetched_CUR]
    rfl
  have hT6 : (advanced (operandFetched (.isz ind a) s)).SC = .t6 := by simp [nextSC]
  rw [exec_eq, mnemonicOf, hadv, Function.iterate_succ_apply, Function.iterate_succ_apply, Function.iterate_one,
    advanced_latchInstr rfl, hT4, completed, transfers_t6 (by simpa using hT6), begun_CUR, advanced_CUR,
    operandFetched_CUR, hT5]
  rfl

end

/-! ## The memory-reference instructions with a quiet host -/

section
variable {s : State} {i : Instr} {ind : Bool} {op : BitVec 3} {a : Addr} (hw : encode s.cfg.opc i = formatM ind op a)

include hw

/-- After T3, if the host does nothing before it. -/
theorem addressed_idle (h : s.hostEvents.headD [] = []) : addressed i s =
    { s with
      AR := effectiveAddress ind a s.M
      I := ind
      CUR := some (mnemonicOf i)
      SC := .t4
      MLATCH := if ind then memRead s.M a else s.MLATCH
      BUSREC := if ind then some ⟨.MEM, .AR, memRead s.M a⟩ else none
      hostEvents := s.hostEvents.tail } := by
  rw [addressed, begun_idle (by simpa using h)]
  simp [fetchAddress, advance, hw, nextSC, latchInstr, latchWord]

/-- After T4, if the host does nothing before T3 and T4. -/
theorem operandFetched_idle (h : s.hostEvents.headD [] = []) (h' : s.hostEvents.tail.headD [] = []) :
    operandFetched i s =
      { s with
        AR := effectiveAddress ind a s.M
        DR := memRead s.M (effectiveAddress ind a s.M)
        I := ind
        CUR := some (mnemonicOf i)
        SC := .t5
        MLATCH := memRead s.M (effectiveAddress ind a s.M)
        BUSREC := some ⟨.MEM, .DR, memRead s.M (effectiveAddress ind a s.M)⟩
        hostEvents := s.hostEvents.tail.tail } := by
  rw [operandFetched, begun_idle (by simpa using h'), addressed_idle hw h]
  rfl

variable (hq : s.hostEvents = [])

include hq

theorem addressed_quiet : begun (addressed i s) =
    { s with
      AR := effectiveAddress ind a s.M
      I := ind
      CUR := some (mnemonicOf i)
      SC := .t4
      MLATCH := if ind then memRead s.M a else s.MLATCH
      BUSREC := none } := by
  rw [begun_quiet (by simp [hq]), addressed_idle hw (by simp [hq])]
  simp [hq]

theorem operandFetched_quiet : begun (operandFetched i s) =
    { s with
      AR := effectiveAddress ind a s.M
      DR := memRead s.M (effectiveAddress ind a s.M)
      I := ind
      CUR := some (mnemonicOf i)
      SC := .t5
      MLATCH := memRead s.M (effectiveAddress ind a s.M)
      BUSREC := none } := by
  have hidle := operandFetched_idle hw (by simp [hq]) (by simp [hq])
  rw [begun_quiet (by simp [hidle, hq]), hidle]
  simp [hq]

end

end Sys2Proof.Machine

namespace Sys2Proof

open Machine

/-- Settles O23: ADD at T5 on the operand; the carry is the model's `addCarry`. -/
theorem addResult : Obligations.AddResult := by
  unfold Obligations.AddResult
  intro ind a s hq
  rw [exec_add, operandFetched_quiet rfl hq]
  rfl

end Sys2Proof

namespace Sys2Proof.Machine

/-- Settles O22: AND at T5 on the operand that T4 fetched. -/
theorem andResult : Obligations.AndResult := by
  unfold Obligations.AndResult
  intro ind a s hq
  rw [exec_and, operandFetched_quiet rfl hq]
  rfl

/-- Settles O24: the operand through the ALU at T5. -/
theorem ldaResult : Obligations.LdaResult := by
  unfold Obligations.LdaResult
  intro ind a s hq
  rw [exec_lda, operandFetched_quiet rfl hq]
  rfl

/-- Settles O25: the store at T4, at the effective address. -/
theorem staResult : Obligations.StaResult := by
  unfold Obligations.StaResult
  intro ind a s hq
  rw [exec_sta, addressed_quiet rfl hq]
  rfl

/-- Settles O26: the jump at T4 to the effective address. -/
theorem bunResult : Obligations.BunResult := by
  unfold Obligations.BunResult
  intro ind a s hq
  rw [exec_bun, addressed_quiet rfl hq]
  rfl

/-- Settles O27: the store and the increment of AR at T4, the jump at T5. -/
theorem bsaResult : Obligations.BsaResult := by
  unfold Obligations.BsaResult
  intro ind a s hq
  rw [exec_bsa, addressed_quiet rfl hq, begun_quiet (s := advance _)]
  · rfl
  · exact hq

theorem add_one_eq_zero_iff (w : Word) : w + 1 = 0 ↔ w = 0xFFFF := by
  constructor <;> intro h <;> bv_omega

/-- Settles O28: the incremented word is 0 exactly when the word was 0xFFFF. -/
theorem iszResult : Obligations.IszResult := by
  unfold Obligations.IszResult
  intro ind a s hq
  have hskip (t : State) : iszSkips { t with DR := memRead s.M (effectiveAddress ind a s.M) + 1 } = true ↔
      memRead s.M (effectiveAddress ind a s.M) = 0xFFFF := (iszSkips_iff _).trans (add_one_eq_zero_iff _)
  rw [exec_isz, operandFetched_quiet rfl hq, begun_quiet (s := advance _)]
  · exact congrArg _ (complete_skip (hskip _) _)
  · exact hq

/-! ## The format-X instructions with a quiet host -/

/-- The latches of T2, in which a format-X instruction executes. -/
def latched (i : Instr) (s : State) : State :=
  { s with
    AR := addrField (encode s.cfg.opc i), I := indirectField (encode s.cfg.opc i), CUR := some (mnemonicOf i)
    SC := .t3, BUSREC := none }

theorem exec_formatX_quiet {i : Instr} {s : State} (hi : i.isMemRef = false) (hq : s.hostEvents = []) :
    exec i s = .next (complete (transfersT3 (some (mnemonicOf i)) (latched i s))) := by
  rw [exec_formatX hi, begun_quiet (by simpa using hq)]
  rfl

/-- A skip instruction, with its condition in any words that mean the same. -/
theorem exec_skip_quiet {i : Instr} {s : State} {b : Bool} {P : Prop} [Decidable P] (hi : i.isMemRef = false)
    (hq : s.hostEvents = []) (ht : transfersT3 (some (mnemonicOf i)) (latched i s) = skip b (latched i s))
    (hb : b = true ↔ P) :
    exec i s = .next { s with
      PC := if P then s.PC + 1 else s.PC
      AR := addrField (encode s.cfg.opc i), I := indirectField (encode s.cfg.opc i), CUR := some (mnemonicOf i)
      SC := .t0, R := s.IEN && (s.FGI || s.FGO), BUSREC := none } := by
  rw [exec_formatX_quiet hi hq, ht, complete_skip hb]
  rfl

/-- Settles O29: CMA's complement is the XOR with all ones. -/
theorem clearAndComplementResults : Obligations.ClearAndComplementResults := by
  unfold Obligations.ClearAndComplementResults
  intro s hq
  refine ⟨exec_formatX_quiet rfl hq, exec_formatX_quiet rfl hq, ?_, exec_formatX_quiet rfl hq⟩
  have hnot : s.AC ^^^ 0xFFFF = ~~~s.AC := BitVec.xor_allOnes
  rw [exec_formatX_quiet rfl hq, hnot]
  rfl

/-- Settles O30: the result words bit by bit are `cirResult_bit` and `cilResult_bit`. -/
theorem circulateResults : Obligations.CirculateResults := by
  unfold Obligations.CirculateResults
  intro s hq
  exact ⟨⟨cirResult s.AC s.E, exec_formatX_quiet rfl hq, cirResult_bit15 _ _, fun _ => cirResult_bit _ _⟩,
    ⟨cilResult s.AC s.E, exec_formatX_quiet rfl hq, cilResult_bit0 _ _, fun _ => cilResult_bit _ _⟩⟩

/-- Settles O31: the sum of two words is the sum modulo 65536. -/
theorem incResult : Obligations.IncResult := by
  unfold Obligations.IncResult
  intro s hq
  have hsum : BitVec.ofNat 16 ((s.AC.toNat + 1) % 65536) = s.AC + 1 := by
    apply BitVec.eq_of_toNat_eq
    simp
  rw [exec_formatX_quiet rfl hq, hsum]
  rfl

theorem spaSkips_iff_lt (s : State) : spaSkips s = true ↔ s.AC.toNat < 32768 := by
  rw [spaSkips_iff, ← BitVec.msb_eq_getLsbD_last, BitVec.msb_eq_false_iff_two_mul_lt]
  omega

theorem snaSkips_iff_le (s : State) : snaSkips s = true ↔ 32768 ≤ s.AC.toNat := by
  rw [← not_lt, ← spaSkips_iff_lt]
  simp [spaSkips, snaSkips]

/-- Settles O32: bit 15 says which half of the unsigned range AC is in. -/
theorem accumulatorSkipResults : Obligations.AccumulatorSkipResults := by
  unfold Obligations.AccumulatorSkipResults
  intro s hq
  exact ⟨exec_skip_quiet rfl hq rfl (spaSkips_iff_lt s), exec_skip_quiet rfl hq rfl (snaSkips_iff_le s),
    exec_skip_quiet rfl hq rfl (szaSkips_iff s), exec_skip_quiet rfl hq rfl (szeSkips_iff s)⟩

/-- Settles O33: T3 of HLT. -/
theorem hltResult : Obligations.HltResult := by
  unfold Obligations.HltResult
  exact fun s hq => exec_formatX_quiet rfl hq

theorem inpValue_false (ac : Word) (b : Byte) : inpValue false ac b = b.setWidth 16 := rfl

theorem inpValue_true_low (ac : Word) (b : Byte) {k : Nat} (hk : k < 8) :
    (inpValue true ac b).getLsbD k = b.getLsbD k := by
  interval_cases k <;> simp [inpValue]

theorem inpValue_true_high (ac : Word) (b : Byte) {k : Nat} (hk : 8 ≤ k) :
    (inpValue true ac b).getLsbD k = ac.getLsbD k := by
  by_cases h16 : k < 16
  · interval_cases k <;> simp [inpValue]
  · simp [BitVec.getLsbD_of_ge _ _ (not_lt.1 h16)]

/-- Settles O34: R is computed with the flag already cleared; INP's word by the parameter. -/
theorem inpAndOutResults : Obligations.InpAndOutResults := by
  unfold Obligations.InpAndOutResults
  intro s hq
  have hinp : exec .inp s = .next { s with
      AC := inpValue s.cfg.inpKeepsACHigh s.AC s.INPR, FGI := false,
      AR := addrField s.cfg.opc.inp, I := indirectField s.cfg.opc.inp, CUR := some .INP,
      SC := .t0, R := s.IEN && s.FGO, BUSREC := none } := exec_formatX_quiet rfl hq
  refine ⟨fun hk => ?_, fun hk => ⟨inpValue true s.AC s.INPR, ?_, fun _ => inpValue_true_low _ _,
    fun _ => inpValue_true_high _ _⟩, ?_⟩
  · rw [hinp, hk, inpValue_false]
  · rw [hinp, hk]
  · rw [exec_formatX_quiet rfl hq, mnemonicOf, complete_out]
    rfl

/-- Settles O35: the two flags are the conditions. -/
theorem deviceSkipResults : Obligations.DeviceSkipResults := by
  unfold Obligations.DeviceSkipResults
  exact fun s hq => ⟨exec_skip_quiet rfl hq rfl .rfl, exec_skip_quiet rfl hq rfl .rfl⟩

/-- Settles O36: the completion reads the new IEN. -/
theorem interruptEnableResults : Obligations.InterruptEnableResults := by
  unfold Obligations.InterruptEnableResults
  exact fun s hq => ⟨exec_formatX_quiet rfl hq, exec_formatX_quiet rfl hq⟩

end Sys2Proof.Machine
end

section
/-! PROOFS. Frames of the instructions (42_memory_reference.md, 43_register_reference.md, 44_io_reference.md) and the
interrupt entry (60_exceptions.md sections 3 and 4). -/

namespace Sys2Proof.Machine

/-! ## Frames -/

/-- Settles O37: the three next states, whose one store is at the effective address. -/
theorem frameOfStoringInstructions : Obligations.FrameOfStoringInstructions := by
  unfold Obligations.FrameOfStoringInstructions
  rintro i ind a s t (rfl | rfl | rfl) hq h
  · cases (staResult ind a s hq).symm.trans h
    exact ⟨fun b hb => memRead_memWrite_other _ _ hb, by simp⟩
  · cases (bsaResult ind a s hq).symm.trans h
    exact ⟨fun b hb => memRead_memWrite_other _ _ hb, by simp⟩
  · cases (iszResult ind a s hq).symm.trans h
    exact ⟨fun b hb => memRead_memWrite_other _ _ hb, by simp⟩

/-- Settles O38: the four next states, which have the memory of before. -/
theorem frameOfLoadingInstructionsAndBun : Obligations.FrameOfLoadingInstructionsAndBun := by
  unfold Obligations.FrameOfLoadingInstructionsAndBun
  rintro i ind a s t (rfl | rfl | rfl | rfl) hq h
  · cases (andResult ind a s hq).symm.trans h
    exact ⟨fun _ => rfl, by simp⟩
  · cases (Sys2Proof.addResult ind a s hq).symm.trans h
    exact ⟨fun _ => rfl, by simp⟩
  · cases (ldaResult ind a s hq).symm.trans h
    exact ⟨fun _ => rfl, by simp⟩
  · cases (bunResult ind a s hq).symm.trans h
    exact ⟨fun _ => rfl, by simp⟩

/-- The format-X instructions have no fields, so the mnemonic says which it is. -/
theorem mnemonicOf_injective_formatX {i j : Instr} (hi : i.isMemRef = false) (hj : j.isMemRef = false)
    (h : some (mnemonicOf i) = some (mnemonicOf j)) : i = j := by
  cases i <;> simp [Instr.isMemRef] at hi <;> cases j <;> simp [mnemonicOf, Instr.isMemRef] at h hj ⊢

theorem mnemonicOf_notMem {i : Instr} (hi : i.isMemRef = false) {l : List Instr} (hl : l.all (!·.isMemRef) = true)
    (hn : i ∉ l) : some (mnemonicOf i) ∉ l.map (fun j => some (mnemonicOf j)) := by
  intro h
  obtain ⟨j, hj, he⟩ := List.mem_map.1 h
  have hjX : j.isMemRef = false := by simpa using List.all_eq_true.1 hl j hj
  exact hn (mnemonicOf_injective_formatX hi hjX he.symm ▸ hj)

/-- Settles O39: the writers of each field in T3. -/
theorem frameOfFormatXInstructions : Obligations.FrameOfFormatXInstructions := by
  unfold Obligations.FrameOfFormatXInstructions
  intro i s t hi hq h
  cases (exec_formatX_quiet hi hq).symm.trans h
  have hk := transfersT3_kept (some (mnemonicOf i)) (latched i s)
  have hx := transfersT3_formatX_kept (latched i s) (mnemonicOf_notMem_memRefMnemonics hi)
  have hM := transfersT3_M (some (mnemonicOf i)) (latched i s)
  have hmem {l : List Instr} (hn : i ∉ l) (hl : l.all (!·.isMemRef) = true) := mnemonicOf_notMem hi hl hn
  have hne {j : Instr} (hn : i ≠ j) (hj : j.isMemRef = false) : some (mnemonicOf i) ≠ some (mnemonicOf j) :=
    fun h => hn (mnemonicOf_injective_formatX hi hj h)
  refine ⟨fun b => by rw [complete_M, hM]; rfl, hx.DR, hk.IR, hk.TR, hk.INPR, hx.MLATCH, hk.cfg, hk.hostTook,
    fun hn => transfersT3_AC _ (hmem hn rfl), fun hn => transfersT3_E _ (hmem hn rfl),
    fun hn => transfersT3_PC _ (hmem hn rfl), fun hn => transfersT3_S _ (hne hn rfl),
    fun hn => ⟨transfersT3_OUTR _ (hne hn rfl), transfersT3_FGO _ (hne hn rfl)⟩,
    fun hn => transfersT3_FGI _ (hne hn rfl), fun hn => transfersT3_IEN _ (hmem hn rfl),
    fun hn => transfersT3_ALUREC _ (hmem hn rfl)⟩

/-! ## The interrupt -/

/-- Settles O42: RT0, RT1 and RT2 in a row. -/
theorem interruptEntryAsAWhole : Obligations.InterruptEntryAsAWhole := by
  unfold Obligations.InterruptEntryAsAWhole
  intro s hR hsc hq
  have hstep : step s = takeInterrupt s := by simp [step, hR]
  rw [hstep, takeInterrupt, runStates_interrupt_t0 hsc 0, begun_quiet hq, begun_quiet (s := interruptRT0 _),
    begun_quiet (s := interruptRT1 _)]
  · simp [interruptRT0_eq, interruptRT1_eq, interruptRT2, incrementPC, hsc]
  · exact hq
  · exact hq

theorem effectiveAddress_direct (a : Addr) (m : Memory) : effectiveAddress false a m = a := rfl

theorem effectiveAddress_indirect (a : Addr) (m : Memory) : effectiveAddress true a m = addrField (memRead m a) := rfl

/-- An address saved as a word comes back as the word's address field. -/
theorem addrField_setWidth (a : Addr) : addrField (a.setWidth 16) = a := by
  rw [← ofNat_toNat_word, ofNat_toNat_addr]

/-- Settles O43: cell 0 reads as the saved PC, which BUN takes back. -/
theorem branchThroughCellZeroReturnsFromInterrupt : Obligations.BranchThroughCellZeroReturnsFromInterrupt := by
  unfold Obligations.BranchThroughCellZeroReturnsFromInterrupt
  intro s hR hsc hq hAC hM
  refine ⟨_, _, interruptEntryAsAWhole s hR hsc hq, bunResult true 0 _ hq, ?_, ?_, rfl, rfl, rfl⟩
  · simp only [effectiveAddress_indirect, memRead_memWrite_same 0 _ hM, addrField_setWidth]
  · simp [hAC]

/-- Settles O44: HLT's next state has R = 1, the interrupt's has S = 0 and R = 0, where a step is nothing. -/
theorem haltWithRequestTakesInterruptAndStaysHalted : Obligations.HaltWithRequestTakesInterruptAndStaysHalted := by
  unfold Obligations.HaltWithRequestTakesInterruptAndStaysHalted
  intro s hq hIEN hflag
  have hR : (s.IEN && (s.FGI || s.FGO)) = true := by simpa [hIEN] using hflag
  refine ⟨_, _, hltResult s hq, hR, rfl, interruptEntryAsAWhole _ hR rfl hq, rfl, rfl, rfl, rfl, ?_⟩
  exact (step_ended rfl rfl).trans (congrArg _ (hostDue_quiet hq))

/-- Settles O52: with IEN = 0 the STA completes at a running boundary; the cell at PC then reads as AC. -/
theorem storeIsFetchedAsTheNextInstruction : Obligations.StoreIsFetchedAsTheNextInstruction := by
  unfold Obligations.StoreIsFetchedAsTheNextInstruction
  intro s i hq hS hIEN hM hd
  have hsta := staResult false s.PC s hq
  rw [effectiveAddress_direct] at hsta
  have hR : (s.IEN && (s.FGI || s.FGO)) = false := by simp [hIEN]
  refine ⟨_, hsta, ?_, ?_⟩
  · rw [fetch_quiet_IR (by exact hq)]
    exact memRead_memWrite_same _ _ hM
  · refine step_runs_exec hR hS rfl ?_
    rw [fetch_quiet_IR (by exact hq), memRead_memWrite_same _ _ hM]
    exact hd

end Sys2Proof.Machine
end

section
/-! PROOFS. The host (60_exceptions.md section 6, 70_reset_and_hazards.md section 3): the effect of each event, and events
between the T-states of an instruction. -/

namespace Sys2Proof.Machine

/-! ## The effect of each event -/

theorem applyHost_drain_ready {s : State} (h : s.FGO = false) :
    applyHost .outputDrain s = { s with FGO := true, hostTook := s.hostTook ++ [s.OUTR] } := by
  simp [applyHost, hostOutputDrain, h]

theorem applyHost_drain_busy {s : State} (h : s.FGO = true) : applyHost .outputDrain s = s := by
  simp [applyHost, hostOutputDrain, h]

/-- A 16-bit register reads as the value modulo 65536. -/
theorem regRead_setReg_word {X : Reg} (hO : X ≠ .OUTR) (hI : X ≠ .INPR) (hA : X ≠ .AR) (hP : X ≠ .PC) (v : Nat)
    (s : State) : (regRead X (applyHost (.setReg X v) s)).toNat = v % 65536 := by
  cases X with
  | AR | PC | OUTR | INPR => contradiction
  | DR | AC | IR | TR => exact BitVec.toNat_ofNat v 16

/-- Settles O45: every event is a record update, and the values written are remainders. -/
theorem hostEventEffects : Obligations.HostEventEffects := by
  unfold Obligations.HostEventEffects
  exact fun s => ⟨fun _ => rfl, applyHost_drain_ready, applyHost_drain_busy,
    fun _ => ⟨rfl, rfl, rfl, rfl, rfl, rfl, rfl, rfl⟩,
    fun X v hO hI hA hP => regRead_setReg_word hO hI hA hP v s,
    fun v => ⟨BitVec.toNat_ofNat v 12, BitVec.toNat_ofNat v 12, BitVec.toNat_ofNat v 8, BitVec.toNat_ofNat v 8⟩,
    fun a v => ⟨rfl, fun hM => memRead_memWrite_same a _ hM, fun _ hb => memRead_memWrite_other _ _ hb⟩, rfl⟩

/-! ## An event between T3 and T4, or between T4 and T5 -/

section
variable {s : State} {i : Instr} {ind : Bool} {op : BitVec 3} {a : Addr} (hw : encode s.cfg.opc i = formatM ind op a)

include hw

/-- A memory edit before T5 finds the operand already in DR. -/
theorem operandFetched_setMem {b : Addr} {v : Nat} (h : s.hostEvents = [[], [], [.setMem b v]]) :
    begun (operandFetched i s) =
      { s with
        AR := effectiveAddress ind a s.M
        DR := memRead s.M (effectiveAddress ind a s.M)
        M := memWrite s.M b (BitVec.ofNat 16 v)
        I := ind
        CUR := some (mnemonicOf i)
        SC := .t5
        MLATCH := memRead s.M (effectiveAddress ind a s.M)
        BUSREC := none
        hostEvents := [] } := by
  have hidle := operandFetched_idle hw (by simp [h]) (by simp [h])
  rw [begun_event (e := .setMem b v) (rest := []) (by simp [hidle, h]), hidle]
  rfl

/-- A memory edit before T4 leaves the effective address. -/
theorem addressed_setMem {b : Addr} {v : Nat} (h : s.hostEvents = [[], [.setMem b v]]) :
    begun (addressed i s) =
      { s with
        AR := effectiveAddress ind a s.M
        M := memWrite s.M b (BitVec.ofNat 16 v)
        I := ind
        CUR := some (mnemonicOf i)
        SC := .t4
        MLATCH := if ind then memRead s.M a else s.MLATCH
        BUSREC := none
        hostEvents := [] } := by
  have hidle := addressed_idle hw (by simp [h])
  rw [begun_event (e := .setMem b v) (rest := []) (by simp [hidle, h]), hidle]
  rfl

/-- A memory edit before T4 comes before the operand is fetched. -/
theorem operandFetched_setMem_before {b : Addr} {v : Nat} (h : s.hostEvents = [[], [.setMem b v]]) :
    begun (operandFetched i s) =
      { s with
        AR := effectiveAddress ind a s.M
        DR := memRead (memWrite s.M b (BitVec.ofNat 16 v)) (effectiveAddress ind a s.M)
        M := memWrite s.M b (BitVec.ofNat 16 v)
        I := ind
        CUR := some (mnemonicOf i)
        SC := .t5
        MLATCH := memRead (memWrite s.M b (BitVec.ofNat 16 v)) (effectiveAddress ind a s.M)
        BUSREC := none
        hostEvents := [] } := by
  rw [operandFetched, addressed_setMem hw h, begun_quiet (s := advance _) rfl]
  rfl

/-- A write of AR before T4 replaces the effective address. -/
theorem addressed_setAR {v : Nat} (h : s.hostEvents = [[], [.setReg .AR v]]) :
    begun (addressed i s) =
      { s with
        AR := BitVec.ofNat 12 v
        I := ind
        CUR := some (mnemonicOf i)
        SC := .t4
        MLATCH := if ind then memRead s.M a else s.MLATCH
        BUSREC := none
        hostEvents := [] } := by
  have hidle := addressed_idle hw (by simp [h])
  rw [begun_event (e := .setReg .AR v) (rest := []) (by simp [hidle, h]), hidle]
  rfl

theorem operandFetched_setAR {v : Nat} (h : s.hostEvents = [[], [.setReg .AR v]]) :
    begun (operandFetched i s) =
      { s with
        AR := BitVec.ofNat 12 v
        DR := memRead s.M (BitVec.ofNat 12 v)
        I := ind
        CUR := some (mnemonicOf i)
        SC := .t5
        MLATCH := memRead s.M (BitVec.ofNat 12 v)
        BUSREC := none
        hostEvents := [] } := by
  rw [operandFetched, addressed_setAR hw h, begun_quiet (s := advance _) rfl]
  rfl

/-- An input byte before T5. -/
theorem operandFetched_input {b : Int} (h : s.hostEvents = [[], [], [.input b]]) :
    begun (operandFetched i s) =
      { s with
        AR := effectiveAddress ind a s.M
        DR := memRead s.M (effectiveAddress ind a s.M)
        INPR := BitVec.ofInt 8 b
        FGI := true
        I := ind
        CUR := some (mnemonicOf i)
        SC := .t5
        MLATCH := memRead s.M (effectiveAddress ind a s.M)
        BUSREC := none
        hostEvents := [] } := by
  have hidle := operandFetched_idle hw (by simp [h]) (by simp [h])
  rw [begun_event (e := .input b) (rest := []) (by simp [hidle, h]), hidle]
  rfl

end

/-! ## Edits of the operand cell -/

/-- T6 of ISZ stores the word that T5 made from the operand as T4 read it, whatever was edited since. -/
theorem isz_overwrites {s : State} {ind : Bool} {a : Addr} {v : Nat} (hM : Memory.wf s.M = true)
    (h : s.hostEvents = [[], [], [.setMem (effectiveAddress ind a s.M) v]] ∨
      s.hostEvents = [[], [], [], [.setMem (effectiveAddress ind a s.M) v]]) :
    ∃ t, exec (.isz ind a) s = .next t ∧
      memRead t.M (effectiveAddress ind a s.M) = memRead s.M (effectiveAddress ind a s.M) + 1 := by
  have hM' := memWrite_wf (effectiveAddress ind a s.M) (BitVec.ofNat 16 v) hM
  refine ⟨_, exec_isz ind a s, ?_⟩
  rcases h with h | h
  · rw [operandFetched_setMem rfl h, begun_quiet (s := advance _) rfl]
    exact memRead_memWrite_same _ _ hM'
  · have hidle := operandFetched_idle (s := s) (i := .isz ind a) rfl (by simp [h]) (by simp [h])
    rw [begun_idle (s := operandFetched (.isz ind a) s) (by simp [hidle, h]), hidle,
      begun_event (s := advance _) (e := .setMem (effectiveAddress ind a s.M) v) (rest := [])
        (by simp [h, transfersT5])]
    exact memRead_memWrite_same _ _ hM'

/-- Settles O47: T4 reads the cell once, T6 of ISZ stores it, and T3 reads the pointer cell. -/
theorem hostEditsOfTheOperandCell : Obligations.HostEditsOfTheOperandCell := by
  unfold Obligations.HostEditsOfTheOperandCell
  intro s ind a v hM
  have hsame := memRead_memWrite_same (effectiveAddress ind a s.M) (BitVec.ofNat 16 v) hM
  refine ⟨fun h => ⟨⟨_, exec_and ind a s, ?_⟩, ⟨_, exec_add ind a s, ?_⟩, ⟨_, exec_lda ind a s, ?_⟩⟩,
    fun h => ⟨⟨_, exec_and ind a s, ?_⟩, ⟨_, exec_add ind a s, ?_⟩, ⟨_, exec_lda ind a s, ?_⟩⟩,
    isz_overwrites hM, fun h => ⟨_, exec_lda true a s, ?_⟩⟩
  · rw [operandFetched_setMem rfl h]
    exact ⟨rfl, hsame⟩
  · rw [operandFetched_setMem rfl h]
    exact ⟨rfl, hsame⟩
  · rw [operandFetched_setMem rfl h]
    exact ⟨rfl, hsame⟩
  · rw [operandFetched_setMem_before rfl h, hsame]
    rfl
  · rw [operandFetched_setMem_before rfl h, hsame]
    rfl
  · rw [operandFetched_setMem_before rfl h, hsame]
    rfl
  · have hAR : (addressed (.lda true a) s).AR = addrField (BitVec.ofNat 16 v) := by
      rw [addressed, begun_event (e := .setMem a v) (rest := []) (by simpa using h)]
      simp [fetchAddress, applyHost, effectiveAddress_indirect, encode, memRead_memWrite_same a _ hM]
    rw [begun_quiet (by simp [operandFetched, fetchOperand, begun, h])]
    simp [operandFetched, fetchOperand, begun_quiet, h, hAR]

/-! ## An input byte before T3 -/

/-- The input byte `b` has arrived, no instruction takes it and the host does nothing more. -/
structure InputArrived (b : Int) (s : State) : Prop where
  INPR : s.INPR = BitVec.ofInt 8 b
  FGI : s.FGI = true
  quiet : s.hostEvents = []
  notInp : s.CUR ≠ some .INP

theorem InputArrived.transfers {b : Int} {s : State} (h : InputArrived b s) : InputArrived b (transfers s) where
  INPR := (transfers_INPR s).trans h.INPR
  FGI := (transfers_FGI fun ⟨_, hc⟩ => h.notInp hc).trans h.FGI
  quiet := (transfers_hostEvents s).trans h.quiet
  notInp := by simpa using h.notInp

theorem InputArrived.begun_advanced {b : Int} {s : State} (h : InputArrived b (begun s)) :
    InputArrived b (begun (advanced s)) := by
  have ht := h.transfers
  rw [begun_quiet (s := advanced s) ht.quiet]
  exact ⟨ht.INPR, ht.FGI, ht.quiet, ht.notInp⟩

theorem InputArrived.begun_iterate {b : Int} (k : Nat) {s : State} (h : InputArrived b (begun s)) :
    InputArrived b (begun (advanced^[k] s)) := by
  induction k generalizing s with
  | zero => exact h
  | succ k ih => exact ih h.begun_advanced

theorem exec_input_before_t3 {s : State} {b : Int} {i : Instr} (hi : i ≠ .inp) (h : s.hostEvents = [[.input b]]) :
    ∃ t, exec i s = .next t ∧ t.INPR = BitVec.ofInt 8 b ∧ t.FGI = true ∧ t.R = t.IEN := by
  have hc : some (mnemonicOf i) ≠ some .INP := by cases i <;> simp [mnemonicOf] at hi ⊢
  have hfirst : InputArrived b (begun (latchInstr i s)) := by
    rw [begun_event (e := .input b) (rest := []) (by simpa using h)]
    exact ⟨rfl, rfl, rfl, hc⟩
  have hlast := (hfirst.begun_iterate (advances s.cfg (some (mnemonicOf i)))).transfers
  refine ⟨_, exec_eq i s, hlast.INPR, hlast.FGI, ?_⟩
  have hFGI : (completed (advanced^[advances s.cfg (some (mnemonicOf i))] (latchInstr i s))).FGI = true := hlast.FGI
  simp [interruptRequest, hFGI]

/-! ## Events inside the fetch -/

/-- The host does nothing before T0 and T1. -/
theorem fetch_idle {s : State} (h : s.hostEvents.headD [] = []) (h' : s.hostEvents.tail.headD [] = []) :
    fetch s = hostDue { s with
      AR := s.PC
      IR := memRead s.M s.PC
      PC := s.PC + 1
      SC := .t2
      MLATCH := memRead s.M s.PC
      BUSREC := some ⟨.MEM, .IR, memRead s.M s.PC⟩
      hostEvents := s.hostEvents.tail.tail } := by
  have hfetch : fetch s = hostDue (fetchT1 (begun (fetchT0 (begun s)))) := rfl
  rw [hfetch, begun_idle h, fetchT0_eq, begun_idle (by exact h'), fetchT1_eq]

/-- A memory edit of the cell at PC before T0 or T1 is fetched. -/
theorem fetch_IR_setMem {s : State} {v : Nat} (hM : Memory.wf s.M = true)
    (h : s.hostEvents = [[.setMem s.PC v]] ∨ s.hostEvents = [[], [.setMem s.PC v]]) :
    (fetch s).IR = BitVec.ofNat 16 v := by
  have hfetch : fetch s = hostDue (fetchT1 (begun (fetchT0 (begun s)))) := rfl
  have hsame := memRead_memWrite_same s.PC (BitVec.ofNat 16 v) hM
  rw [hfetch]
  rcases h with h | h
  · rw [begun_event h, fetchT0_eq, begun_quiet (by rfl), fetchT1_eq, hostDue_quiet (by rfl)]
    exact hsame
  · rw [begun_idle (s := s) (by simp [h]), fetchT0_eq,
      begun_event (e := .setMem s.PC v) (rest := []) (by simp [h]), fetchT1_eq,
      hostDue_quiet (by rfl)]
    exact hsame

/-- Settles O48: what the host writes before a T-state is what that T-state reads. -/
theorem hostEventsInsideAnInstruction : Obligations.HostEventsInsideAnInstruction := by
  unfold Obligations.HostEventsInsideAnInstruction
  intro s ind a
  refine ⟨fun v h => ⟨⟨_, exec_and ind a s, ?_⟩, ⟨_, exec_add ind a s, ?_⟩, ⟨_, exec_lda ind a s, ?_⟩,
      ⟨_, exec_sta ind a s, ?_⟩, ⟨_, exec_bun ind a s, ?_⟩⟩,
    fun b i hi h => exec_input_before_t3 hi h, fun b h => ⟨_, exec_lda ind a s, ?_⟩,
    fun hR hS hsc => ⟨fun v i h hd => ?_, fun v hM => ⟨fetch_IR_setMem hM, fun h => ?_⟩⟩⟩
  · rw [operandFetched_setAR rfl h]
    rfl
  · rw [operandFetched_setAR rfl h]
    rfl
  · rw [operandFetched_setAR rfl h]
    rfl
  · rw [addressed_setAR rfl h]
    rfl
  · rw [addressed_setAR rfl h]
    rfl
  · rw [operandFetched_input rfl h]
    exact ⟨rfl, rfl, Bool.and_true _⟩
  · have hf := fetch_idle (s := s) (by simp [h]) (by simp [h])
    rw [h, hostDue_cons (es := [.setReg .IR v]) (rest := []) rfl] at hf
    have hIR : (fetch s).IR = BitVec.ofNat 16 v := by rw [hf]; rfl
    exact ⟨hIR, by rw [hf]; rfl, step_runs_exec hR hS hsc (by rw [hIR]; exact hd)⟩
  · have hf := fetch_idle (s := s) (by simp [h]) (by simp [h])
    rw [h, hostDue_cons (es := [.setMem s.PC v]) (rest := []) rfl] at hf
    rw [hf]
    exact ⟨rfl, memRead_memWrite_same _ _ hM⟩

end Sys2Proof.Machine
end
